-- ==== Sys2Proof/Word.lean ====
section
/-! DEFINITION. The two widths of the block's values: 00_scope.md R10 (`u8`, `u16`, unsigned, bit 0 the least significant). -/

namespace Sys2Proof

/-- `u8`: one byte of a frame or of the reply. -/
abbrev Byte := BitVec 8

/-- `u16`: a frequency, a pulse count, a resolution. -/
abbrev Half := BitVec 16

end Sys2Proof
end

