-- ==== Sys2Proof/Reasons.lean ====
section
/-! DEFINITION. The cells a rule or an observation can read, and the reasons that enter FAULT (00_scope.md R13, 20_memory.md R44). -/

namespace Sys2Proof

/-- A cell of 10_state.md that can be read: a byte of the reply, a field of a channel or device record, the request latch. -/
inductive Cell where
  /-- One byte of the reply. 43_dispatcher.md R109 and vector V-H3 name the fault of reading an unwritten one UnwrittenRead(REPLY);
  10_state.md R30 lists REPLY[0] and REPLY[1] as cells. DESIGN CHOICE: the fault names the byte read, so reading both unwritten
  bytes enters two reasons into FAULT. Safe (log 27). -/
  | reply (offset : Nat)
  | run (d c : Nat)
  | duty (d c : Nat)
  | mode (d : Nat)
  | freq (d : Nat)
  | res (d : Nat)
  | req
  deriving DecidableEq, Repr

/-- The members of FAULT (10_state.md R35). They mark the state and stop nothing: safe. -/
inductive FaultReason where
  /-- A read of a cell that holds no value yet. Raised by an observation (43_dispatcher.md R109) and by a read of the request
  latch, which no rule makes while it is unwritten (00_scope.md R13). -/
  | unwrittenRead (cell : Cell)
  /-- `MemRead(a, n)` past the end of the command. Raised by the codec's reads, none of which is (20_memory.md R44). -/
  | cmdReadOutOfRange (a n : Nat)
  deriving DecidableEq, Repr

end Sys2Proof
end

