-- ==== Sys2Proof/Syntax.lean ====
section
/-! DEFINITION. The five rows of spec/opcode_table.json (30_encoding.md R59), one constructor each. -/

namespace Sys2Proof

/-- One decoded command. `malformed` and `unknown` keep what 60_exceptions.md R114 records of them (the length, the opcode
byte) and nothing else of the frame, which is not read; the other three keep all the fields the codec decodes. -/
inductive Instr where
  /-- Row 1, a frame shorter than seven bytes (43_dispatcher.md R107). -/
  | malformed (len : Nat)
  /-- Row 2, an opcode byte other than CONFIGURE (R108). -/
  | unknown (opcode : Byte)
  /-- Row 3, CONFIGURE with frequency 0; duty and count are decoded and unused (R104). -/
  | pwmStop (pin duty : Byte) (count : Half)
  /-- Row 4, CONFIGURE with a frequency and count 0 (R105). -/
  | pwmRun (pin : Byte) (freq : Half) (duty : Byte)
  /-- Row 5, CONFIGURE with a frequency and a count (R106). -/
  | pwmPulse (pin : Byte) (freq : Half) (duty : Byte) (count : Half)
  deriving DecidableEq, Repr

end Sys2Proof
end

