-- ==== Sys2Proof/Decode.lean ====
section
/-! DEFINITION. The Command Codec's decode (41_command_codec.md R74 to R81), the encoder (30_encoding.md R67), the frame word
of R55, and the spec's own assembly lines (R65, R66). -/

namespace Sys2Proof

/-- `CONFIGURE` (00_scope.md R7; unaudited literal, log 17). -/
def configureOpcode : Byte := 0x01#8

/-- `MIN_CMD_LEN` (00_scope.md R7; unaudited literal, log 17). -/
def minCmdLen : Nat := 7

/-- The u16 whose more significant byte is `hi` (20_memory.md R40). -/
def bigEndian (hi lo : Byte) : Half := (hi.setWidth 16 <<< 8) ||| lo.setWidth 16

/-- The more significant byte, the one at the lower offset. -/
def highByte (v : Half) : Byte := (v >>> 8).setWidth 8

/-- The less significant byte. -/
def lowByte (v : Half) : Byte := v.setWidth 8

/-- `MemRead(a, 1)` of the command space (00_scope.md R11, 20_memory.md R44). -/
def memRead8 (cmd : List Byte) (a : Nat) : Except FaultReason Byte :=
  match cmd[a]? with
  | some b => .ok b
  | none => .error (.cmdReadOutOfRange a 1)

/-- `MemRead(a, 2)` of the command space, big-endian (20_memory.md R40, R44). -/
def memRead16 (cmd : List Byte) (a : Nat) : Except FaultReason Half :=
  match cmd[a]?, cmd[a + 1]? with
  | some hi, some lo => .ok (bigEndian hi lo)
  | _, _ => .error (.cmdReadOutOfRange a 2)

/-- Rows 3 to 5 of 30_encoding.md R59: which of them a CONFIGURE frame's fields select. -/
def configureRow (pin : Byte) (freq : Half) (duty : Byte) (count : Half) : Instr :=
  if freq = 0#16 then .pwmStop pin duty count
  else if count = 0#16 then .pwmRun pin freq duty
  else .pwmPulse pin freq duty count

/-- `decode(CMD, LEN)`, the checks and reads in the order of 41_command_codec.md R75 to R80: the length before any byte, the opcode
before any field. Total: `error` stands only for a read past the frame's end, which these checks rule out. -/
def decode (cmd : List Byte) : Except FaultReason Instr :=
  if cmd.length < minCmdLen then .ok (.malformed cmd.length)
  else
    (memRead8 cmd 0).bind fun opcode =>
    if opcode ≠ configureOpcode then .ok (.unknown opcode)
    else
      (memRead8 cmd 1).bind fun pin =>
      (memRead16 cmd 2).bind fun freq =>
      (memRead8 cmd 4).bind fun duty =>
      (memRead16 cmd 5).bind fun count =>
      .ok (configureRow pin freq duty count)

/-- The seven bytes of a `CONFIGURE` line (30_encoding.md R67). -/
def configureFrame (pin : Byte) (freq : Half) (duty : Byte) (count : Half) : List Byte :=
  [configureOpcode, pin, highByte freq, lowByte freq, duty, highByte count, lowByte count]

/-- A frame that selects the instruction's row with its operands. Bytes that row does not read are 0. -/
def encode : Instr → List Byte
  | .malformed len => List.replicate len 0#8
  | .unknown opcode => [opcode, 0#8, 0#8, 0#8, 0#8, 0#8, 0#8]
  | .pwmStop pin duty count => configureFrame pin 0#16 duty count
  | .pwmRun pin freq duty => configureFrame pin freq duty 0#16
  | .pwmPulse pin freq duty count => configureFrame pin freq duty count

/-- The frame word `W` of a frame of seven bytes or more: byte 0 in bits 55..48, byte 6 in bits 7..0 (30_encoding.md R55). -/
def frameWord : List Byte → Option (BitVec 56)
  | b0 :: b1 :: b2 :: b3 :: b4 :: b5 :: b6 :: _ => some (b0 ++ b1 ++ b2 ++ b3 ++ b4 ++ b5 ++ b6)
  | _ => none

/-- The `n` low bytes of a number, the most significant first. -/
def bytesOfNat : (n w : Nat) → List Byte
  | 0, _ => []
  | n + 1, w => BitVec.ofNat 8 (w >>> (8 * n)) :: bytesOfNat n w

/-- The frame whose bits are `w`, numbered as spec/opcode_table.json numbers them: one word, its last byte in bits 7..0, and as
many bytes as the row gives bits, so that a row of fewer than 56 bits is a frame shorter than seven bytes (log 11). -/
def frameOfTableWord (nbits w : Nat) : List Byte := bytesOfNat ((nbits + 7) / 8) w

/-- The instruction read from a table word. -/
def decodeTableWord (nbits w : Nat) : Option Instr :=
  match decode (frameOfTableWord nbits w) with
  | .ok i => some i
  | .error _ => none

/-- One line of the spec's assembly syntax, its operands as written (30_encoding.md R65). -/
inductive AsmLine where
  | configure (pin freq duty count : Nat)
  | stop (pin : Nat)
  | run (pin freq duty : Nat)
  | pulse (pin freq duty count : Nat)
  | frame (bytes : List Nat)
  deriving DecidableEq, Repr

/-- A `CONFIGURE` line; an operand outside its type's range is refused (30_encoding.md R65, R67). -/
def assembleConfigure (pin freq duty count : Nat) : Option (List Byte) :=
  if pin < 256 ∧ freq < 65536 ∧ duty < 256 ∧ count < 65536 then
    some (configureFrame (BitVec.ofNat 8 pin) (BitVec.ofNat 16 freq) (BitVec.ofNat 8 duty) (BitVec.ofNat 16 count))
  else none

/-- The frame of a line, or `none` where the assembler refuses it (30_encoding.md R65 to R67). -/
def assemble : AsmLine → Option (List Byte)
  | .configure pin freq duty count => assembleConfigure pin freq duty count
  | .stop pin => assembleConfigure pin 0 0 0
  | .run pin freq duty => if freq = 0 then none else assembleConfigure pin freq duty 0
  | .pulse pin freq duty count => if freq = 0 ∨ count = 0 then none else assembleConfigure pin freq duty count
  | .frame bytes => if bytes.all (fun b => decide (b < 256)) then some (bytes.map (BitVec.ofNat 8)) else none

end Sys2Proof
end

