-- ==== Sys2Proof/Config.lean ====
section
/-! DEFINITION. What an implementation fixes (00_scope.md R8, R9) and the free values (00_scope.md R11, `draw`). -/

namespace Sys2Proof

/-- The domain pins are compared in (00_scope.md R8, `Key`). The spec leaves it open; a natural number names a member of any
countable domain, and the default domain `u8` is the numbers below 256. DESIGN CHOICE, safe (log 12). -/
abbrev Key := Nat

/-- The `mode` argument of `init` (00_scope.md R8, D27): opaque, so only equality is ever asked of it. DESIGN CHOICE, safe (log 21). -/
abbrev PwmMode := Nat

/-- `SIBLING_INIT_EFFECT` (00_scope.md R8, 42_pwm_controller.md R94). -/
inductive SiblingInitEffect where
  | preserve
  | draw
  deriving DecidableEq, Repr, Inhabited

/-- The open parameters of 00_scope.md R8. Read-only data: no step writes them (10_state.md R26). `registry[d][c]` is
`REG_KEY(d, c)`, and `none` there is a key that is not defined, which 00_scope.md R9 does not admit; so `NUM_DEV` is the list's
length and `NCH(d)` the length of its row `d`, and a channel's ids are its place (10_state.md R26). `pinKeys` lists the pins
whose `PIN_KEY` is not the default (the pin's own number). -/
structure Params where
  registry    : List (List (Option Key))
  pinKeys     : List (Byte × Key)
  moduleId    : Byte
  statusOk    : Byte
  statusFail  : Byte
  pwmMode     : PwmMode
  maxCmdLen   : Nat
  siblingInit : SiblingInitEffect
  deriving DecidableEq, Repr

/-- `MODULE_ID`, of which the spec gives no value (91_not_in_source.md N3). Free, safe (log 2). -/
opaque Config.moduleId : Byte

/-- `STATUS_OK`, of which the spec gives no value (N3). Free, safe (log 2). -/
opaque Config.statusOk : Byte

/-- What `STATUS_FAIL` is drawn from. Free, safe (log 2). -/
opaque Config.statusFailRaw : Byte

/-- `STATUS_FAIL`: any byte but `STATUS_OK` (00_scope.md R8: `STATUS_FAIL != STATUS_OK`). -/
def Config.statusFail : Byte :=
  if Config.statusFailRaw = Config.statusOk then ~~~Config.statusOk else Config.statusFailRaw

/-- `PWM_MODE`, of which the spec gives no value (N8). Free, safe (log 2). -/
opaque Config.pwmMode : PwmMode

/-- `SIBLING_INIT_EFFECT`, which the spec leaves open (D12). Free, safe (log 2). -/
opaque Config.siblingInit : SiblingInitEffect

/-- The free values `draw x in S` of 42_pwm_controller.md R94, each a choice between two members: `true` takes the second one
listed (`Idle`, unwritten). Applied to the counter `State.draws`. Free, safe (log 3). -/
opaque Config.draw : Nat → Bool

end Sys2Proof
end

