-- ==== Sys2Proof/Machine/Setup.lean ====
section
/-! DEFINITION. The parameters State.reset starts from. Every statement that is not about reset holds for all parameters. -/

namespace Sys2Proof.Machine

/-- `REG_EX`, the example registry of 95_test_vectors.md: three devices, the last without channels; the key 3 stands twice. -/
def exampleRegistry : List (List (Option Key)) :=
  [[some 2, some 3], [some 3, some 7], []]

/-- DESIGN CHOICE, unsafe (log 1): the registry and the longest command are those of the common setup of 95_test_vectors.md,
the spec naming no other. `PIN_KEY` is the spec's default (00_scope.md R8). The rest stays free (log 2). -/
def resetParams : Params where
  registry := exampleRegistry
  pinKeys := []
  moduleId := Config.moduleId
  statusOk := Config.statusOk
  statusFail := Config.statusFail
  pwmMode := Config.pwmMode
  maxCmdLen := 16
  siblingInit := Config.siblingInit

end Sys2Proof.Machine
end

