-- ==== Sys2Proof/Machine/State.lean ====
section
/-! DEFINITION. The state of 10_state.md R15, the moves of its agents, why a step can stop, and reset (R30). -/

namespace Sys2Proof.Machine

/-- The channel state machine's states (10_state.md R19). The count of a finite run is in 1..65535; that it is never 0 is an
invariant (R21). -/
inductive RunState where
  | idle
  | runningContinuous
  | runningFinite (n : Half)
  deriving DecidableEq, Repr

/-- A channel record (10_state.md R19, R22); `none` is the unwritten value. -/
structure Channel where
  run  : RunState
  duty : Option Byte
  deriving DecidableEq, Repr

/-- A device record (10_state.md R23 to R25); `none` is the unwritten value. -/
structure Device where
  mode : Option PwmMode
  freq : Option Half
  res  : Option Half
  deriving DecidableEq, Repr

/-- The request latch REQ (10_state.md R16, R29); `none` is the unwritten value. -/
structure Latch where
  pin   : Option Byte
  freq  : Option Half
  duty  : Option Byte
  count : Option Half
  deriving DecidableEq, Repr

/-- A call on the peripheral port (10_state.md R27, 60_exceptions.md R123). -/
inductive Call where
  | init (d : Nat) (mode : PwmMode) (freq res : Half)
  | setDuty (d c : Nat) (duty : Byte)
  | start (d c : Nat)
  | runPulses (d c : Nat) (count : Half)
  | stop (d c : Nat)
  deriving DecidableEq, Repr

/-- An error cause with its recorded value (60_exceptions.md R114). -/
inductive Cause where
  | malformedCommand (len : Nat)
  | unknownOpcode (opcode : Byte)
  | pinNotAvailable (pin : Byte)
  deriving DecidableEq, Repr

/-- An event of the history: the index of the command that raised a cause, and the cause (60_exceptions.md R114; log 9). -/
structure ErrorEvent where
  k     : Nat
  cause : Cause
  deriving DecidableEq, Repr

/-- What happens next, chosen outside the block (00_scope.md R6, 20_memory.md R50). -/
inductive Move where
  /-- The host presents a frame and a reply region of `room` bytes (20_memory.md R37, 70_reset_and_hazards.md R133). -/
  | present (frame : List Byte) (room : Nat)
  /-- The waveform generator of channel `(d, c)` completes a cycle (42_pwm_controller.md R96, R97). -/
  | cycle (d c : Nat)
  /-- The host reads a cell (00_scope.md R14; log 8). -/
  | observe (cell : Cell)
  deriving DecidableEq, Repr

/-- Bytes by offset, offsets strictly rising; an offset not listed is unwritten. -/
abbrev Memory := List Host.Cell

/-- The state of the block. -/
structure State where
  /-- The Channel Registry and the other parameters, read-only (10_state.md R26, 00_scope.md R8). -/
  params     : Params
  /-- `CH[d][c]` (10_state.md R15). -/
  ch         : List (List Channel)
  /-- `DEV[d]` (R15). -/
  dev        : List Device
  /-- `REQ` (R16). -/
  req        : Latch
  /-- `REPLY` (R28). -/
  reply      : Memory
  /-- `REPLY_VALID` (R28). -/
  replyValid : Bool
  /-- `TRACE`, the oldest call first (R27). -/
  trace      : List Call
  /-- `FAULT`, without repeats, in the order first raised (R35; log 19). -/
  faultSet   : List FaultReason
  /-- `REFUSED` (R35). -/
  refused    : Bool
  /-- The command index (R17). -/
  k          : Nat
  /-- The causes raised so far (60_exceptions.md R114). The model's own field (log 9). -/
  history    : List ErrorEvent
  /-- How many free values have been drawn. The model's own field (log 3). -/
  draws      : Nat
  /-- The moves to come. The model's own field (log 4). -/
  schedule   : List Move
  deriving DecidableEq, Repr

/-- Why the machine stops with a fault. -/
inductive Fault where
  /-- The host observes a cell that does not exist (10_state.md R34, 20_memory.md R38) or that is not observable
  (00_scope.md R14). Raised by `observe`. Safe (log 20). -/
  | notObservable (cell : Cell)
  deriving DecidableEq, Repr

/-- Why no step is taken. -/
inductive Refusal where
  /-- Raised by `exec`'s arms for an instruction without a meaning; there is none left. Safe. -/
  | notModelled (mnemonic : String)
  /-- The schedule names a cycle event that is not enabled (42_pwm_controller.md R98). Raised by `cycleEvent`. Safe (log 10). -/
  | cycleNotEnabled (d c : Nat)
  /-- No move is scheduled and no channel is RunningFinite: the block waits (70_reset_and_hazards.md R130, R144). Raised by
  `drain`. Safe (log 5). -/
  | noMoveDue
  deriving DecidableEq, Repr

/-- The unwritten latch. -/
def Latch.empty : Latch := ⟨none, none, none, none⟩

/-- A channel at reset (10_state.md R30). -/
def Channel.initial : Channel := ⟨.idle, none⟩

/-- A device that has not been initialised (10_state.md R30). -/
def Device.uninitialised : Device := ⟨none, none, none⟩

/-- `ResetIdle` for given parameters (70_reset_and_hazards.md R129, 10_state.md R30): a channel record for exactly the registered
pairs. -/
def State.launch (p : Params) : State where
  params := p
  ch := p.registry.map fun row => row.map fun _ => Channel.initial
  dev := p.registry.map fun _ => Device.uninitialised
  req := Latch.empty
  reply := []
  replyValid := false
  trace := []
  faultSet := []
  refused := false
  k := 0
  history := []
  draws := 0
  schedule := []

/-- The machine right after reset. -/
def State.reset : State := State.launch resetParams

end Sys2Proof.Machine
end

