-- ==== Sys2Proof/Machine/Flags.lean ====
section
/-! DEFINITION. The block has no condition flags (10_state.md R18). Its one-bit marks: REPLY_VALID (R28), FAULT and REFUSED (R35). -/

namespace Sys2Proof.Machine

/-- Set or clear REPLY_VALID (10_state.md R28). -/
def State.setReplyValid (b : Bool) (s : State) : State := { s with replyValid := b }

/-- Enter a reason into the set FAULT; nothing ever takes one out (10_state.md R35). -/
def State.markFault (r : FaultReason) (s : State) : State :=
  { s with faultSet := if r ∈ s.faultSet then s.faultSet else s.faultSet ++ [r] }

/-- Set REFUSED, which nothing clears (10_state.md R35). -/
def State.markRefused (s : State) : State := { s with refused := true }

end Sys2Proof.Machine
end

