-- ==== Sys2Proof/Machine/Ops.lean ====
section
/-! DEFINITION. The named operations over the state: the reply memory, channel and device records, the call trace, the reply
write, raising an error cause, the end of a command, refusing a presentation. -/

namespace Sys2Proof.Machine

/-- `REPLY_LEN` (00_scope.md R7; unaudited literal, log 17). -/
def replyLen : Nat := 2

/-- `RESOLUTION`, the steps of the waveform generator (00_scope.md R7; unaudited literal, log 17). -/
def resolution : Half := 100#16

/-- The byte at an offset; `none` is the unwritten value (10_state.md R28). -/
def Memory.read : Memory → Nat → Option Byte
  | [], _ => none
  | (b, v) :: rest, a => if a = b then some v else Memory.read rest a

/-- `MemWrite(a, 1, v)` (00_scope.md R11). Keeps offsets strictly rising. -/
def Memory.write : Memory → Nat → Byte → Memory
  | [], a, v => [(a, v)]
  | (b, w) :: rest, a, v =>
    if a < b then (a, v) :: (b, w) :: rest
    else if a = b then (a, v) :: rest
    else (b, w) :: Memory.write rest a v

/-- The canonical form: offsets strictly rising. No listed byte equals what an unlisted offset reads as, since that is no value. -/
def Memory.wf : Memory → Bool
  | [] => true
  | [_] => true
  | (a, _) :: (b, w) :: rest => decide (a < b) && Memory.wf ((b, w) :: rest)

/-- The channel record of `(d, c)`; `none` for a pair without one (10_state.md R34). -/
def State.chan (s : State) (d c : Nat) : Option Channel :=
  match s.ch[d]? with
  | some row => row[c]?
  | none => none

/-- Change the record of channel `(d, c)`; a pair without a record is left alone (10_state.md R34). -/
def State.updateChan (d c : Nat) (f : Channel → Channel) (s : State) : State :=
  { s with ch := s.ch.modify d (fun row => row.modify c f) }

/-- `CH[d][c].run <- r`. -/
def State.setRun (d c : Nat) (r : RunState) (s : State) : State :=
  s.updateChan d c fun x => { x with run := r }

/-- `CH[d][c].duty <- du`. -/
def State.setDuty (d c : Nat) (du : Byte) (s : State) : State :=
  s.updateChan d c fun x => { x with duty := some du }

/-- `DEV[d] <- {mode, freq, res}` (42_pwm_controller.md R89). -/
def State.setDevice (d : Nat) (mode : PwmMode) (freq res : Half) (s : State) : State :=
  { s with dev := s.dev.set d ⟨some mode, some freq, some res⟩ }

/-- `call P(args)`: append to TRACE; nothing comes back (00_scope.md R11, 42_pwm_controller.md R101). -/
def State.call (e : Call) (s : State) : State := { s with trace := s.trace ++ [e] }

/-- An outcome the reply encodes (41_command_codec.md R82). -/
inductive Status where
  | ok
  | fail
  deriving DecidableEq, Repr

/-- The codec's `encode(outcome)`: the two bytes of the reply (41_command_codec.md R82 to R84). -/
def encodeReply (p : Params) : Status → Byte × Byte
  | .ok => (p.moduleId, p.statusOk)
  | .fail => (p.moduleId, p.statusFail)

/-- `reply(o)`: both bytes, then REPLY_VALID (43_dispatcher.md R109). -/
def State.replyWith (o : Status) (s : State) : State :=
  let bytes := encodeReply s.params o
  State.setReplyValid true
    { s with reply := Memory.write (Memory.write s.reply 0 bytes.1) 1 bytes.2 }

/-- The code 60_exceptions.md R114 gives a cause, for the model only. -/
def Cause.code : Cause → Nat
  | .malformedCommand _ => 1
  | .unknownOpcode _ => 2
  | .pinNotAvailable _ => 3

/-- `raise <Cause>`: record the cause, then a Fail reply, or for UnknownOpcode no reply at all (60_exceptions.md R115 to R117, R120).
Nothing is saved and control goes nowhere but to the end of the command; there is no return operation (R121). -/
def State.raise (cause : Cause) (s : State) : State :=
  let s' : State := { s with history := s.history ++ [⟨s.k, cause⟩] }
  match cause with
  | .unknownOpcode _ => s'.setReplyValid false
  | _ => s'.replyWith .fail

/-- The command index advances by one (10_state.md R17). -/
def State.nextIndex (s : State) : State := { s with k := s.k + 1 }

/-- The end of a command: REQ unwritten again, the command index advanced (43_dispatcher.md R112). -/
def State.endCommand (s : State) : State := { s.nextIndex with req := Latch.empty }

/-- A presentation of `len` bytes outside the admitted set sets REFUSED. One longer than MAX_CMD_LEN changes nothing else
(43_dispatcher.md R113); one refused for its reply region or its registry (70_reset_and_hazards.md R133) is a presentation like any other
to the command index (10_state.md R17; log 7). -/
def State.refusePresentation (len : Nat) (s : State) : State :=
  if s.params.maxCmdLen < len then s.markRefused else s.markRefused.nextIndex

end Sys2Proof.Machine
end

