-- ==== Sys2Proof/Machine/Cycle.lean ====
section
/-! DEFINITION. The waveform generators' cycle events (42_pwm_controller.md R96 to R99). -/

namespace Sys2Proof.Machine

/-- A cycle event is enabled for a channel in this state (42_pwm_controller.md R96 to R98). A finite count of 0 is no legal value
(10_state.md R21) and enables none. -/
def RunState.enabled : RunState → Bool
  | .idle => false
  | .runningContinuous => false
  | .runningFinite n => decide (n ≠ 0#16)

/-- The state a cycle leaves: one cycle fewer, Idle after the last (42_pwm_controller.md R96, R97). -/
def RunState.afterCycle : RunState → RunState
  | .idle => .idle
  | .runningContinuous => .runningContinuous
  | .runningFinite n => if n = 1#16 then .idle else .runningFinite (n - 1#16)

/-- A cycle event of channel `(d, c)`. No call, no reply, no other cell changes (42_pwm_controller.md R96, R97). -/
def cycleEvent (d c : Nat) (s : State) : Host.Outcome State Fault Refusal :=
  match s.chan d c with
  | none => .refused (.cycleNotEnabled d c)
  | some x => if x.run.enabled then .next (s.setRun d c x.run.afterCycle) else .refused (.cycleNotEnabled d c)

/-- The first channel at or after `c` with a cycle event due. -/
def firstEnabledChannel (c : Nat) : List Channel → Option Nat
  | [] => none
  | x :: rest => if x.run.enabled then some c else firstEnabledChannel (c + 1) rest

/-- The first channel in registry order, from device `d` on, with a cycle event due. -/
def firstEnabled (d : Nat) : List (List Channel) → Option (Nat × Nat)
  | [] => none
  | row :: rest =>
    match firstEnabledChannel 0 row with
    | some c => some (d, c)
    | none => firstEnabled (d + 1) rest

/-- With nothing scheduled the cycle events that are due still come (42_pwm_controller.md R99, weak fairness), here in registry
order (log 6); where none is due no move is (70_reset_and_hazards.md R144; log 5). -/
def drain (s : State) : Host.Outcome State Fault Refusal :=
  match firstEnabled 0 s.ch with
  | some (d, c) => cycleEvent d c s
  | none => .refused .noMoveDue

end Sys2Proof.Machine
end

