-- ==== Sys2Proof/Machine/Controller.lean ====
section
/-! DEFINITION. The PWM Controller's `apply` (42_pwm_controller.md R86 to R95). -/

namespace Sys2Proof.Machine

/-- What the init of a device does to one of its other channels, number `i` (42_pwm_controller.md R94): nothing under PRESERVE; under
DRAW it keeps its run state or becomes Idle, and keeps its duty or has it unwritten, as two free values say (log 3). -/
def siblingChannel (p : Params) (n i : Nat) (x : Channel) : Channel :=
  match p.siblingInit with
  | .preserve => x
  | .draw =>
    { run := if Config.draw (n + 2 * i) then .idle else x.run
      duty := if Config.draw (n + 2 * i + 1) then none else x.duty }

/-- How many free values an init draws: two for each channel of the device, under DRAW (log 3). -/
def drawsTaken (p : Params) (channels : Nat) : Nat :=
  match p.siblingInit with
  | .preserve => 0
  | .draw => 2 * channels

/-- `sibling_effect(d, c)`: every channel of device `d` but `c` (42_pwm_controller.md R94). -/
def State.siblingEffect (d c : Nat) (s : State) : State :=
  { s with
    ch := s.ch.modify d fun row => row.mapIdx fun i x => if i = c then x else siblingChannel s.params s.draws i x
    draws := s.draws + drawsTaken s.params (s.ch[d]?.getD []).length }

/-- The stop branch (42_pwm_controller.md R88): duty and the device are unchanged. -/
def State.stopBranch (d c : Nat) (s : State) : State :=
  (s.call (.stop d c)).setRun d c .idle

/-- Device (re-)initialisation (42_pwm_controller.md R89), every time. -/
def State.initDevice (d c : Nat) (freq : Half) (s : State) : State :=
  ((s.call (.init d s.params.pwmMode freq resolution)).setDevice d s.params.pwmMode freq resolution).siblingEffect d c

/-- The duty step (42_pwm_controller.md R90), the value passed through as it is (R95). -/
def State.setDutyStep (d c : Nat) (duty : Byte) (s : State) : State :=
  (s.call (.setDuty d c duty)).setDuty d c duty

/-- The continuous start (42_pwm_controller.md R91). -/
def State.startContinuous (d c : Nat) (s : State) : State :=
  (s.call (.start d c)).setRun d c .runningContinuous

/-- The finite start (42_pwm_controller.md R92). -/
def State.startFinite (d c : Nat) (count : Half) (s : State) : State :=
  (s.call (.runPulses d c count)).setRun d c (.runningFinite count)

/-- `apply(d, c, f, du, n)`, the branch chosen by `f` and `n` only (42_pwm_controller.md R87). -/
def State.apply (d c : Nat) (freq : Half) (duty : Byte) (count : Half) (s : State) : State :=
  if freq = 0#16 then s.stopBranch d c
  else
    let s' := (s.initDevice d c freq).setDutyStep d c duty
    if count = 0#16 then s'.startContinuous d c else s'.startFinite d c count

end Sys2Proof.Machine
end

