-- ==== Sys2Proof/Machine/Operands.lean ====
section
/-! DEFINITION. A command's operands: the request of the codec (41_command_codec.md R74) and the latch REQ that holds it while the
command is handled (10_state.md R16, R29). -/

namespace Sys2Proof.Machine

/-- `Request(pin, freq, duty, count)` (41_command_codec.md R74). -/
structure Request where
  pin   : Byte
  freq  : Half
  duty  : Byte
  count : Half
  deriving DecidableEq, Repr

/-- The request a row was decoded from; rows 1 and 2 have none (41_command_codec.md R74). -/
def requestOf : Instr → Option Request
  | .malformed _ => none
  | .unknown _ => none
  | .pwmStop pin duty count => some ⟨pin, 0#16, duty, count⟩
  | .pwmRun pin freq duty => some ⟨pin, freq, duty, 0#16⟩
  | .pwmPulse pin freq duty count => some ⟨pin, freq, duty, count⟩

/-- A successful decode writes the four fields of REQ (41_command_codec.md R74, R77 to R80). -/
def State.latchRequest (r : Request) (s : State) : State :=
  { s with req := ⟨some r.pin, some r.freq, some r.duty, some r.count⟩ }

/-- REQ read as numbers; `none` where a field is unwritten (00_scope.md R13). -/
def State.latched (s : State) : Option Request :=
  match s.req.pin, s.req.freq, s.req.duty, s.req.count with
  | some pin, some freq, some duty, some count => some ⟨pin, freq, duty, count⟩
  | _, _, _, _ => none

end Sys2Proof.Machine
end

