-- ==== Sys2Proof/Machine/Resolver.lean ====
section
/-! DEFINITION. The Channel Registry and the Pin Resolver (40_pin_resolver.md, 00_scope.md R9). -/

namespace Sys2Proof.Machine

/-- `REG_KEY(d, c)`; `none` outside the registry and where no key is defined. -/
def regKey (p : Params) (d c : Nat) : Option Key :=
  match p.registry[d]? with
  | some row => row[c]?.join
  | none => none

/-- `PIN_KEY(p)`: the pin's own number where the parameters name no other (00_scope.md R8). -/
def pinKey (p : Params) (pin : Byte) : Key := (p.pinKeys.lookup pin).getD pin.toNat

/-- The first channel at or after `c` whose key is the one sought. -/
def findChannel (key : Key) (c : Nat) : List (Option Key) → Option Nat
  | [] => none
  | k :: rest => if k = some key then some c else findChannel key (c + 1) rest

/-- The first channel of the first device at or after `d` that has one. -/
def findDevice (key : Key) (d : Nat) : List (List (Option Key)) → Option (Nat × Nat)
  | [] => none
  | row :: rest =>
    match findChannel key 0 row with
    | some c => some (d, c)
    | none => findDevice key (d + 1) rest

/-- `resolve(pin)`: the registry in order, device ascending, then channel ascending (40_pin_resolver.md R69); `none` is NotFound. -/
def resolve (p : Params) (pin : Byte) : Option (Nat × Nat) := findDevice (pinKey p pin) 0 p.registry

/-- A registry is admitted only if every key is defined (00_scope.md R9); a list is finite. -/
def registryWf (p : Params) : Bool := p.registry.all fun row => row.all Option.isSome

end Sys2Proof.Machine
end

