-- ==== Sys2Proof/Machine/Configure.lean ====
section
/-! DEFINITION. Rows 3 to 5, the branches of CONFIGURE (43_dispatcher.md R103 to R106, R110). -/

namespace Sys2Proof.Machine

/-- The dispatcher on the latched request: resolve, then apply and reply Ok, or PinNotAvailable (43_dispatcher.md R103). An
unwritten latch is a read of an unwritten value (00_scope.md R13), which no command makes. -/
def State.dispatch (s : State) : State :=
  match s.latched with
  | none => s.markFault (.unwrittenRead .req)
  | some r =>
    match resolve s.params r.pin with
    | none => s.raise (.pinNotAvailable r.pin)
    | some (d, c) => (s.apply d c r.freq r.duty r.count).replyWith .ok

/-- A CONFIGURE command: latch the request, dispatch it, end the command (43_dispatcher.md R103, R112). -/
def configure (r : Request) (s : State) : Host.Outcome State Fault Refusal :=
  .next ((s.latchRequest r).dispatch).endCommand

/-- PWM.STOP (43_dispatcher.md R104). -/
def execPwmStop (pin duty : Byte) (count : Half) (s : State) : Host.Outcome State Fault Refusal :=
  configure ⟨pin, 0#16, duty, count⟩ s

/-- PWM.RUN (43_dispatcher.md R105). -/
def execPwmRun (pin : Byte) (freq : Half) (duty : Byte) (s : State) : Host.Outcome State Fault Refusal :=
  configure ⟨pin, freq, duty, 0#16⟩ s

/-- PWM.PULSE (43_dispatcher.md R106). -/
def execPwmPulse (pin : Byte) (freq : Half) (duty : Byte) (count : Half) (s : State) :
    Host.Outcome State Fault Refusal :=
  configure ⟨pin, freq, duty, count⟩ s

end Sys2Proof.Machine
end

