-- ==== Sys2Proof/Machine/Rejected.lean ====
section
/-! DEFINITION. Rows 1 and 2: the frames the codec does not decode to a request (43_dispatcher.md R107, R108). -/

namespace Sys2Proof.Machine

/-- MALFORMED: raise MalformedCommand, which replies Fail (43_dispatcher.md R107). -/
def execMalformed (len : Nat) (s : State) : Host.Outcome State Fault Refusal :=
  .next (s.raise (.malformedCommand len)).endCommand

/-- UNKNOWN: a silent no-op; REPLY keeps its bytes (43_dispatcher.md R108, 90_conflicts.md C1). -/
def execUnknown (opcode : Byte) (s : State) : Host.Outcome State Fault Refusal :=
  .next (s.raise (.unknownOpcode opcode)).endCommand

end Sys2Proof.Machine
end

