-- ==== Sys2Proof/Machine/Dispatch.lean ====
section
/-! DEFINITION. The dispatcher's choice of row: one arm per row of spec/opcode_table.json. -/

namespace Sys2Proof.Machine

/-- Run one decoded command. -/
def exec (i : Instr) (s : State) : Host.Outcome State Fault Refusal :=
  match i with
  | .malformed len => Sys2Proof.Machine.execMalformed len s
  | .unknown opcode => Sys2Proof.Machine.execUnknown opcode s
  | .pwmStop pin duty count => Sys2Proof.Machine.execPwmStop pin duty count s
  | .pwmRun pin freq duty => Sys2Proof.Machine.execPwmRun pin freq duty s
  | .pwmPulse pin freq duty count => Sys2Proof.Machine.execPwmPulse pin freq duty count s

end Sys2Proof.Machine
end

