-- ==== Sys2Proof/Machine/Observe.lean ====
section
/-! DEFINITION. The host's observation of a cell (00_scope.md R13, R14; 43_dispatcher.md R109). -/

namespace Sys2Proof.Machine

/-- What a cell holds. -/
inductive CellValue where
  | run (r : RunState)
  | byte (b : Byte)
  | half (h : Half)
  | mode (m : PwmMode)
  deriving DecidableEq, Repr

/-- What a read of a cell finds. -/
inductive CellRead where
  | value (v : CellValue)
  | unwritten
  | notObservable
  deriving DecidableEq, Repr

/-- The number 10_state.md R19 gives a run state, for the model only. -/
def RunState.code : RunState → Nat
  | .idle => 0
  | .runningContinuous => 1
  | .runningFinite _ => 2

/-- A cell that exists: its value, or unwritten. -/
def CellRead.ofCell {α : Type} (mk : α → CellValue) : Option α → CellRead
  | some v => .value (mk v)
  | none => .unwritten

/-- A field of a record: not observable where the record does not exist. -/
def CellRead.ofRecord {ρ : Type} (field : ρ → CellRead) : Option ρ → CellRead
  | some x => field x
  | none => .notObservable

/-- Read a cell. REQ is not observable (00_scope.md R14), nor is a record of an unregistered pair (10_state.md R34) or a reply offset
other than 0 and 1 (20_memory.md R38). -/
def State.readCell (s : State) : Cell → CellRead
  | .reply a => if a < replyLen then .ofCell .byte (Memory.read s.reply a) else .notObservable
  | .run d c => .ofRecord (fun x => .value (.run x.run)) (s.chan d c)
  | .duty d c => .ofRecord (fun x => .ofCell .byte x.duty) (s.chan d c)
  | .mode d => .ofRecord (fun v => .ofCell .mode v.mode) s.dev[d]?
  | .freq d => .ofRecord (fun v => .ofCell .half v.freq) s.dev[d]?
  | .res d => .ofRecord (fun v => .ofCell .half v.res) s.dev[d]?
  | .req => .notObservable

/-- An observation changes nothing, but that a read of an unwritten cell marks FAULT (00_scope.md R13; log 8). -/
def observe (cell : Cell) (s : State) : Host.Outcome State Fault Refusal :=
  match s.readCell cell with
  | .value _ => .next s
  | .unwritten => .next (s.markFault (.unwrittenRead cell))
  | .notObservable => .fault (.notObservable cell)

end Sys2Proof.Machine
end

