-- ==== Sys2Proof/Machine/Port.lean ====
section
/-! DEFINITION. The command port: `handle(CMD, LEN)` (43_dispatcher.md R103), and the taking of one move. -/

namespace Sys2Proof.Machine

/-- The presentation is in the admitted set: not longer than MAX_CMD_LEN (43_dispatcher.md R113), a reply region of two bytes at
least, a well-formed registry (70_reset_and_hazards.md R133). -/
def admitted (p : Params) (len room : Nat) : Bool :=
  decide (len ≤ p.maxCmdLen) && decide (replyLen ≤ room) && registryWf p

/-- `handle(CMD, LEN)`: outside the admitted set the presentation is refused (43_dispatcher.md R103, R113; log 7); else the
frame is decoded and its row run. A read past the frame's end would mark FAULT (20_memory.md R44); decode makes none. -/
def present (frame : List Byte) (room : Nat) (s : State) : Host.Outcome State Fault Refusal :=
  if admitted s.params frame.length room then
    match decode frame with
    | .ok i => exec i s
    | .error r => .next (s.markFault r).endCommand
  else .next (s.refusePresentation frame.length)

/-- Take one move. -/
def takeMove (m : Move) (s : State) : Host.Outcome State Fault Refusal :=
  match m with
  | .present frame room => present frame room s
  | .cycle d c => cycleEvent d c s
  | .observe cell => observe cell s

end Sys2Proof.Machine
end

