-- ==== Sys2Proof/Machine/Step.lean ====
section
/-! DEFINITION. One step: the move at the head of the schedule, or what is due when nothing is scheduled. -/

namespace Sys2Proof.Machine

/-- One atomic step (00_scope.md R5). -/
def step (s : State) : Host.Outcome State Fault Refusal :=
  match s.schedule with
  | [] => drain s
  | m :: rest => takeMove m { s with schedule := rest }

/-- `s` with the frame of a table word presented next, with a reply region of two bytes (log 5, log 11). -/
def State.withFetchWord (s : State) (nbits w : Nat) : State :=
  { s with schedule := .present (frameOfTableWord nbits w) replyLen :: s.schedule }

end Sys2Proof.Machine
end

