-- ==== Sys2Proof/Safety.lean ====
section
/-! DEFINITION. What counts as a sound state and as the end of a run, in the terms the statements use. -/

namespace Sys2Proof.Machine

/-- No fault and no refusal has been marked (10_state.md R35). -/
abbrev State.Clean (s : State) : Prop := s.faultSet = [] ∧ s.refused = false

/-- No channel is RunningFinite (70_reset_and_hazards.md R144). -/
abbrev State.NoFiniteRun (s : State) : Prop :=
  ∀ row ∈ s.ch, ∀ x ∈ row, match x.run with
    | .runningFinite _ => False
    | _ => True

/-- The end of a run (70_reset_and_hazards.md R144): no move is scheduled, no channel is RunningFinite, nothing is marked. DESIGN CHOICE,
safe (log 26): R144 speaks of further commands only, and here a scheduled observation, which is no command (log 8), or a scheduled
cycle event keeps a run from being over as well. -/
abbrev State.RunOver (s : State) : Prop := s.schedule = [] ∧ s.NoFiniteRun ∧ s.Clean

/-- A channel record exists for exactly the registered pairs, a device record for exactly the registered devices
(10_state.md R15, R26, R34). -/
abbrev State.Shaped (s : State) : Prop :=
  s.ch.map List.length = s.params.registry.map List.length ∧ s.dev.length = s.params.registry.length

/-- No channel holds `RunningFinite(0)` (10_state.md R21). -/
abbrev State.CountsLegal (s : State) : Prop :=
  ∀ row ∈ s.ch, ∀ x ∈ row, x.run ≠ .runningFinite 0#16

/-- A device record is unwritten, or holds PWM_MODE, a nonzero frequency and the resolution (10_state.md R23 to R25). -/
def Device.legal (p : Params) (v : Device) : Bool :=
  match v.mode, v.freq, v.res with
  | none, none, none => true
  | some m, some f, some r => decide (m = p.pwmMode) && decide (f ≠ 0#16) && decide (r = resolution)
  | _, _, _ => false

/-- Every device record is legal. -/
abbrev State.DevicesLegal (s : State) : Prop := ∀ v ∈ s.dev, v.legal s.params = true

/-- `(d, c)` is a registered pair with its key defined (10_state.md R26). -/
def registered (p : Params) (d c : Nat) : Bool := (regKey p d c).isSome

/-- The arguments 60_exceptions.md R123 allows a call: a registered channel, a nonzero frequency or count, the resolution. -/
def Call.legal (p : Params) : Call → Bool
  | .init d mode freq res =>
    decide (d < p.registry.length) && decide (mode = p.pwmMode) && decide (freq ≠ 0#16) && decide (res = resolution)
  | .setDuty d c _ => registered p d c
  | .start d c => registered p d c
  | .runPulses d c count => registered p d c && decide (count ≠ 0#16)
  | .stop d c => registered p d c

/-- Every call ever made is legal. -/
abbrev State.TraceLegal (s : State) : Prop := ∀ e ∈ s.trace, e.legal s.params = true

/-- The reply region is unwritten, or holds both bytes of a reply (10_state.md R28, 43_dispatcher.md R109). -/
abbrev State.ReplyLegal (s : State) : Prop :=
  s.reply = [] ∨ s.reply = [(0, s.params.moduleId), (1, s.params.statusOk)] ∨
    s.reply = [(0, s.params.moduleId), (1, s.params.statusFail)]

/-- The invariant every step keeps: the records fit the registry, the values are legal, REQ is unwritten between commands
(10_state.md R29), REPLY is whole and in its canonical form, REPLY_VALID implies that a reply was written, FAULT has no repeats. -/
abbrev State.Inv (s : State) : Prop :=
  s.Shaped ∧ s.CountsLegal ∧ s.DevicesLegal ∧ s.TraceLegal ∧ s.req = Latch.empty ∧ s.ReplyLegal ∧
    (s.replyValid = true → s.reply ≠ []) ∧ s.faultSet.Nodup ∧ Memory.wf s.reply = true

/-- REPLY holds `[MODULE_ID, status]` (30_encoding.md R56). -/
abbrev State.HoldsReply (s : State) (status : Byte) : Prop :=
  Memory.read s.reply 0 = some s.params.moduleId ∧ Memory.read s.reply 1 = some status

/-- Every byte of the reply memory but the two of the reply is as it was. -/
abbrev State.KeepsOtherBytes (s t : State) : Prop :=
  ∀ a, a ≠ 0 → a ≠ 1 → Memory.read t.reply a = Memory.read s.reply a

/-- What an init may leave of a sibling's record `x` (42_pwm_controller.md R94). -/
abbrev SiblingAfterInit (p : Params) (x y : Channel) : Prop :=
  (p.siblingInit = .preserve → y = x) ∧ (y.run = x.run ∨ y.run = .idle) ∧ (y.duty = x.duty ∨ y.duty = none)

/-- Every other registered channel of device `d` is as R94 allows, and no channel without a record gains one. -/
abbrev State.SiblingsAfterInit (s t : State) (d c : Nat) : Prop :=
  ∀ c', c' ≠ c →
    (∀ x, s.chan d c' = some x → ∃ y, t.chan d c' = some y ∧ SiblingAfterInit s.params x y) ∧
      (s.chan d c' = none → t.chan d c' = none)

/-- Channels and records of every other device are as they were. -/
abbrev State.KeepsOtherDevices (s t : State) (d : Nat) : Prop :=
  ∀ d', d' ≠ d → t.dev[d']? = s.dev[d']? ∧ ∀ c, t.chan d' c = s.chan d' c

/-- What a CONFIGURE command leaves of the record `x` of channel `(d, c)` (42_pwm_controller.md R102). -/
def configureEffect (p : Params) (r : Request) (d c : Nat) (x y : Channel) : Prop :=
  match resolve p r.pin with
  | none => y = x
  | some (d', c') =>
    if d' = d ∧ c' = c then
      y = if r.freq = 0#16 then { x with run := .idle }
          else if r.count = 0#16 then ⟨.runningContinuous, some r.duty⟩
          else ⟨.runningFinite r.count, some r.duty⟩
    else if d' = d ∧ r.freq ≠ 0#16 then SiblingAfterInit p x y
    else y = x

/-- What a cycle event leaves of the record `x` of its channel (42_pwm_controller.md R96, R97): enabled only on a finite run. -/
def cycleEffect (x y : Channel) : Prop :=
  (∃ m, x.run = .runningFinite m ∧ 2 ≤ m.toNat ∧ y = { x with run := .runningFinite (m - 1#16) }) ∨
    (x.run = .runningFinite 1#16 ∧ y = { x with run := .idle })

end Sys2Proof.Machine
end

