-- ==== Sys2Proof/WellFormed.lean ====
section
/-! DEFINITION. The operands each row admits: the conditions of 30_encoding.md R59. -/

namespace Sys2Proof

/-- `i` is an instruction some frame encodes: a malformed frame is shorter than seven bytes, an unknown opcode is not 0x01,
a run has a frequency, a pulse has a frequency and a count (30_encoding.md R59, R61, R62). -/
def Instr.wf : Instr → Bool
  | .malformed len => decide (len < 7)
  | .unknown opcode => decide (opcode ≠ 0x01#8)
  | .pwmStop _ _ _ => true
  | .pwmRun _ freq _ => decide (freq ≠ 0#16)
  | .pwmPulse _ freq _ count => decide (freq ≠ 0#16) && decide (count ≠ 0#16)

end Sys2Proof
end

