-- ==== Sys2Proof/Certificates/Slice0/Obligations.lean ====
section
/-! DEFINITION. The statements for the provers. A statement whose basis is 'derived' rests on a rule the spec marks as its own
decision or inference, or on a choice of the model's; its docstring says which. -/

open Sys2Proof Sys2Proof.Machine

/-! ## Encoding: 20_memory.md, 30_encoding.md, 41_command_codec.md -/

/-- Words written out from 30_encoding.md's layout and 95_test_vectors.md's own vectors (S1, V-O1, V-O3, V-O5, V-O6, V-D8) decode to
the instruction they stand for. Derived: the vectors are the spec's own inferences; the numbering of a table word is log 11. -/
def Obligations.SpecWordsDecodeToTheirRows : Prop :=
  decode [0x01, 0x03, 0x00, 0x64, 0x32, 0x00, 0x00] = .ok (.pwmRun 3 100 50) ∧
  decode [0x01, 0xFF, 0x01, 0x00, 0xC8, 0x01, 0x00] = .ok (.pwmPulse 255 256 200 256) ∧
  decode [0x01, 0x03, 0x00] = .ok (.malformed 3) ∧
  decodeTableWord 56 0x01030000320005 = some (.pwmStop 3 50 5) ∧
  decodeTableWord 56 0x010703E8190003 = some (.pwmPulse 7 1000 25 3) ∧
  decodeTableWord 56 0x02030064320000 = some (.unknown 2)

/-- 20_memory.md R40: the byte at the lower offset is the more significant, at every offset. -/
def Obligations.TwoByteFieldsAreBigEndian : Prop :=
  (∀ (cmd : List Byte) (a : Nat) (hi lo : Byte), cmd[a]? = some hi → cmd[a + 1]? = some lo →
    ∃ v, memRead16 cmd a = .ok v ∧ v = (hi.setWidth 16 <<< 8 ||| lo.setWidth 16) ∧
      v.toNat = 256 * hi.toNat + lo.toNat) ∧
  memRead16 [0x00, 0x64] 0 = .ok 100 ∧ memRead16 [0x01, 0x00] 0 = .ok 256

/-- A read of 1 or 2 bytes faults exactly when it passes the frame's end, and decode never makes such a read, whatever the frame
(20_memory.md R44, which the spec marks as derived from the codec's length check). -/
def Obligations.NoReadLeavesTheFrame : Prop :=
  (∀ (cmd : List Byte) (a : Nat), memRead8 cmd a = .error (.cmdReadOutOfRange a 1) ↔ cmd.length < a + 1) ∧
  (∀ (cmd : List Byte) (a : Nat), memRead16 cmd a = .error (.cmdReadOutOfRange a 2) ↔ cmd.length < a + 2) ∧
  ∀ cmd : List Byte, ∃ i, decode cmd = .ok i ∧ i.wf = true

/-- 30_encoding.md R57: the fields of a CONFIGURE frame, each from its own bytes, unsigned, unscaled, unchecked. -/
def Obligations.FieldsAreAssembledFromTheirBytes : Prop :=
  ∀ (b1 b2 b3 b4 b5 b6 : Byte) (rest : List Byte),
    ∃ i r, decode (0x01#8 :: b1 :: b2 :: b3 :: b4 :: b5 :: b6 :: rest) = .ok i ∧ requestOf i = some r ∧
      r.pin = b1 ∧ r.freq.toNat = b2.toNat * 256 + b3.toNat ∧ r.duty = b4 ∧
      r.count.toNat = b5.toNat * 256 + b6.toNat

/-- 30_encoding.md R59: the five rows by their conditions on LEN and W; every frame falls under one. -/
def Obligations.FrameSelectsItsRow : Prop :=
  (∀ cmd : List Byte, cmd.length < 7 → decode cmd = .ok (.malformed cmd.length)) ∧
  (∀ cmd : List Byte, 7 ≤ cmd.length → ∃ w, frameWord cmd = some w ∧
    (w.extractLsb 55 48 ≠ 0x01#8 → decode cmd = .ok (.unknown (w.extractLsb 55 48))) ∧
    (w.extractLsb 55 48 = 0x01#8 → w.extractLsb 39 24 = 0#16 →
      decode cmd = .ok (.pwmStop (w.extractLsb 47 40) (w.extractLsb 23 16) (w.extractLsb 15 0))) ∧
    (w.extractLsb 55 48 = 0x01#8 → w.extractLsb 39 24 ≠ 0#16 → w.extractLsb 15 0 = 0#16 →
      decode cmd = .ok (.pwmRun (w.extractLsb 47 40) (w.extractLsb 39 24) (w.extractLsb 23 16))) ∧
    (w.extractLsb 55 48 = 0x01#8 → w.extractLsb 39 24 ≠ 0#16 → w.extractLsb 15 0 ≠ 0#16 →
      decode cmd =
        .ok (.pwmPulse (w.extractLsb 47 40) (w.extractLsb 39 24) (w.extractLsb 23 16) (w.extractLsb 15 0))))

/-- 30_encoding.md R60, R61, R62: match and mask of rows 3 to 5 over the frame word, with their extra conditions. -/
def Obligations.RowsAreTheirMasks : Prop :=
  ∀ (cmd : List Byte) (w : BitVec 56), frameWord cmd = some w →
    ((∃ p du n, decode cmd = .ok (.pwmStop p du n)) ↔
      w &&& 0xFF00FFFF000000#56 = 0x01000000000000#56) ∧
    ((∃ p f du, decode cmd = .ok (.pwmRun p f du)) ↔
      w &&& 0xFF00000000FFFF#56 = 0x01000000000000#56 ∧ w.extractLsb 39 24 ≠ 0#16) ∧
    ((∃ p f du n, decode cmd = .ok (.pwmPulse p f du n)) ↔
      w &&& 0xFF000000000000#56 = 0x01000000000000#56 ∧ w.extractLsb 39 24 ≠ 0#16 ∧ w.extractLsb 15 0 ≠ 0#16)

/-- 41_command_codec.md R75, R76: the length first, no byte read; then the opcode, no further byte read. -/
def Obligations.LengthThenOpcodeIsChecked : Prop :=
  (∀ cmd cmd' : List Byte, cmd.length < 7 → cmd'.length = cmd.length →
    decode cmd = .ok (.malformed cmd.length) ∧ decode cmd' = decode cmd) ∧
  (∀ (op : Byte) (rest rest' : List Byte), op ≠ 0x01#8 → 6 ≤ rest.length → 6 ≤ rest'.length →
    decode (op :: rest) = .ok (.unknown op) ∧ decode (op :: rest') = decode (op :: rest)) ∧
  (∀ cmd : List Byte, 7 ≤ cmd.length → ∀ n, decode cmd ≠ .ok (.malformed n)) ∧
  ∀ rest : List Byte, 6 ≤ rest.length → ∀ op, decode (0x01#8 :: rest) ≠ .ok (.unknown op)

/-- Bytes 7 and on have no effect. Derived: 30_encoding.md R58 marks this as the spec's decision D7. -/
def Obligations.TrailingBytesAreIgnored : Prop :=
  ∀ (cmd rest : List Byte), 7 ≤ cmd.length → decode (cmd ++ rest) = decode (cmd.take 7)

/-- Decode undoes encode, for every well-formed instruction and every value of its operands. Derived: the encoding of a line is
30_encoding.md R67, which the spec marks as derived. -/
def Obligations.DecodeUndoesEncode : Prop :=
  ∀ i : Instr, i.wf = true → decode (encode i) = .ok i

/-- The assembler's frames decode to the row the line names, with its operands, and it refuses what R65 says it refuses; the pseudo
lines are CONFIGURE lines; a .frame line is its bytes. Derived: the syntax is the spec's decision D18 (30_encoding.md R65 to R67). -/
def Obligations.AssembledLinesDecodeToTheirRow : Prop :=
  (∀ pin freq duty count, pin < 256 → freq < 65536 → duty < 256 → count < 65536 →
    ∃ bytes, assemble (.configure pin freq duty count) = some bytes ∧ bytes.length = 7 ∧ decode bytes = .ok
      (if freq = 0 then .pwmStop (BitVec.ofNat 8 pin) (BitVec.ofNat 8 duty) (BitVec.ofNat 16 count)
       else if count = 0 then .pwmRun (BitVec.ofNat 8 pin) (BitVec.ofNat 16 freq) (BitVec.ofNat 8 duty)
       else .pwmPulse (BitVec.ofNat 8 pin) (BitVec.ofNat 16 freq) (BitVec.ofNat 8 duty) (BitVec.ofNat 16 count))) ∧
  (∀ pin freq duty count, ¬(pin < 256 ∧ freq < 65536 ∧ duty < 256 ∧ count < 65536) →
    assemble (.configure pin freq duty count) = none) ∧
  (∀ pin, assemble (.stop pin) = assemble (.configure pin 0 0 0)) ∧
  (∀ pin freq duty, assemble (.run pin freq duty) =
    if freq = 0 then none else assemble (.configure pin freq duty 0)) ∧
  (∀ pin freq duty count, assemble (.pulse pin freq duty count) =
    if freq = 0 ∨ count = 0 then none else assemble (.configure pin freq duty count)) ∧
  (∀ bytes : List Byte, assemble (.frame (bytes.map BitVec.toNat)) = some bytes ∧
    ∃ i, decode bytes = .ok i ∧ i.wf = true) ∧
  ∀ (bytes : List Nat) (b : Nat), b ∈ bytes → 256 ≤ b → assemble (.frame bytes) = none

/-! ## The resolver: 40_pin_resolver.md -/

/-- 40_pin_resolver.md R69, R71: the channel found is the first, device ascending and then channel ascending, whose key is the
pin's; a channel whose key an earlier one has is found by no pin. -/
def Obligations.ResolverFindsFirstMatch : Prop :=
  (∀ (p : Params) (pin : Byte) (d c : Nat), resolve p pin = some (d, c) ↔
    regKey p d c = some (pinKey p pin) ∧
      ∀ d' c', (d' < d ∨ d' = d ∧ c' < c) → regKey p d' c' ≠ some (pinKey p pin)) ∧
  ∀ (p : Params) (d c d' c' : Nat) (key : Key), regKey p d c = some key → regKey p d' c' = some key →
    (d' < d ∨ d' = d ∧ c' < c) → ∀ pin, resolve p pin ≠ some (d, c)

/-- 40_pin_resolver.md R72: NotFound exactly when no registered channel matches, an empty registry and one without channels
included. -/
def Obligations.ResolverNotFoundExactlyWithoutMatch : Prop :=
  (∀ (p : Params) (pin : Byte), resolve p pin = none ↔ ∀ d c, regKey p d c ≠ some (pinKey p pin)) ∧
  ∀ (p : Params) (pin : Byte), (p.registry = [] ∨ ∀ row ∈ p.registry, row = []) → resolve p pin = none

/-- A pin that resolves has a channel record and a device record. Derived: that records exist for exactly the registered pairs is
10_state.md R26, R34 (decision D23; R34 is marked derived). -/
def Obligations.ResolvedPinHasItsRecords : Prop :=
  ∀ (s : State) (pin : Byte) (d c : Nat), s.Shaped → resolve s.params pin = some (d, c) →
    (∃ x, s.chan d c = some x) ∧ ∃ v, s.dev[d]? = some v

/-! ## The reply: 41_command_codec.md R82 to R85, 43_dispatcher.md R109 -/

/-- 41_command_codec.md R83, R84: the two bytes of each reply, different for Ok and Fail where the constants are distinct
(00_scope.md R8), whatever the cause of failure. -/
def Obligations.ReplyBytesOfEachOutcome : Prop :=
  ∀ p : Params, encodeReply p .ok = (p.moduleId, p.statusOk) ∧ encodeReply p .fail = (p.moduleId, p.statusFail) ∧
    (p.statusFail ≠ p.statusOk → encodeReply p .fail ≠ encodeReply p .ok)

/-- A reply write sets both bytes and REPLY_VALID, and no other byte and no other field; written over a canonical region it leaves
one. Derived: 43_dispatcher.md R109 rests on decision D6. -/
def Obligations.ReplyWriteSetsBothBytes : Prop :=
  ∀ (s : State) (o : Status),
    Memory.read (s.replyWith o).reply 0 = some (encodeReply s.params o).1 ∧
    Memory.read (s.replyWith o).reply 1 = some (encodeReply s.params o).2 ∧
    s.KeepsOtherBytes (s.replyWith o) ∧
    s.replyWith o = { s with reply := (s.replyWith o).reply, replyValid := true } ∧
    (Memory.wf s.reply = true → Memory.wf (s.replyWith o).reply = true)

/-! ## The commands: 43_dispatcher.md. `k` and `req` at the end of each are R112. What a failing command enters in `history`, the
model's own field, is left open here (`history := t.history`) and stated by CausesAreRecorded. The clause on siblings says what
42_pwm_controller.md R94 leaves open, for every value of the parameter and of the draws. -/

/-- The setting of the rules' examples: REG_EX, the default PIN_KEY, a record for each registered channel. -/
abbrev OnExample (s : State) : Prop :=
  s.params.registry = exampleRegistry ∧ s.params.pinKeys = [] ∧ s.Shaped

/-- A CONFIGURE command whose pin does not resolve: a Fail reply and nothing else but the end of a command. -/
abbrev FailsUnresolved (i : Instr) (pin : Byte) : Prop :=
  ∀ s : State, resolve s.params pin = none →
    ∃ t, exec i s = .next t ∧ t.HoldsReply s.params.statusFail ∧ s.KeepsOtherBytes t ∧
      t = { s with reply := t.reply, replyValid := true, req := Latch.empty, k := s.k + 1, history := t.history }

/-- 43_dispatcher.md R104: PWM.STOP, on every state of the channel and for every duty and count; REG_EX's example. -/
def Obligations.PwmStopStopsTheChannel : Prop :=
  (∀ (pin duty : Byte) (count : Half) (rest : List Byte),
    decode (configureFrame pin 0#16 duty count ++ rest) = .ok (.pwmStop pin duty count)) ∧
  (∀ (s : State) (pin duty : Byte) (count : Half) (d c : Nat), s.Shaped → resolve s.params pin = some (d, c) →
    ∃ x t, s.chan d c = some x ∧ exec (.pwmStop pin duty count) s = .next t ∧
      t.chan d c = some { x with run := .idle } ∧
      (∀ d' c', ¬(d' = d ∧ c' = c) → t.chan d' c' = s.chan d' c') ∧
      t.HoldsReply s.params.statusOk ∧ s.KeepsOtherBytes t ∧
      t = { s with ch := t.ch, trace := s.trace ++ [.stop d c], reply := t.reply, replyValid := true,
                   req := Latch.empty, k := s.k + 1 }) ∧
  (∀ (pin duty : Byte) (count : Half), FailsUnresolved (.pwmStop pin duty count) pin) ∧
  ∀ s, OnExample s → ∃ i t, decode [0x01, 0x03, 0x00, 0x00, 0x32, 0x00, 0x05] = .ok i ∧ exec i s = .next t ∧
    t.trace = s.trace ++ [.stop 0 1] ∧ (t.chan 0 1).map Channel.run = some .idle ∧ t.HoldsReply s.params.statusOk

/-- 43_dispatcher.md R105: PWM.RUN, on every state of the channel; the source's scenario. -/
def Obligations.PwmRunStartsAContinuousRun : Prop :=
  (∀ (pin : Byte) (freq : Half) (duty : Byte) (rest : List Byte), freq ≠ 0#16 →
    decode (configureFrame pin freq duty 0#16 ++ rest) = .ok (.pwmRun pin freq duty)) ∧
  (∀ (s : State) (pin : Byte) (freq : Half) (duty : Byte) (d c : Nat), s.Shaped → freq ≠ 0#16 →
    resolve s.params pin = some (d, c) →
    ∃ t, exec (.pwmRun pin freq duty) s = .next t ∧
      t.chan d c = some ⟨.runningContinuous, some duty⟩ ∧
      t.dev[d]? = some ⟨some s.params.pwmMode, some freq, some 100#16⟩ ∧
      s.SiblingsAfterInit t d c ∧ s.KeepsOtherDevices t d ∧
      t.HoldsReply s.params.statusOk ∧ s.KeepsOtherBytes t ∧
      t = { s with ch := t.ch, dev := t.dev, draws := t.draws, reply := t.reply, replyValid := true,
                   req := Latch.empty, k := s.k + 1,
                   trace := s.trace ++ [.init d s.params.pwmMode freq 100#16, .setDuty d c duty, .start d c] }) ∧
  (∀ (pin : Byte) (freq : Half) (duty : Byte), FailsUnresolved (.pwmRun pin freq duty) pin) ∧
  ∀ s, OnExample s → ∃ i t, decode [0x01, 0x03, 0x00, 0x64, 0x32, 0x00, 0x00] = .ok i ∧ exec i s = .next t ∧
    t.trace = s.trace ++ [.init 0 s.params.pwmMode 100 100, .setDuty 0 1 50, .start 0 1] ∧
    t.HoldsReply s.params.statusOk

/-- 43_dispatcher.md R106: PWM.PULSE, on every state of the channel; REG_EX's example. -/
def Obligations.PwmPulseStartsAFiniteRun : Prop :=
  (∀ (pin : Byte) (freq : Half) (duty : Byte) (count : Half) (rest : List Byte), freq ≠ 0#16 → count ≠ 0#16 →
    decode (configureFrame pin freq duty count ++ rest) = .ok (.pwmPulse pin freq duty count)) ∧
  (∀ (s : State) (pin : Byte) (freq : Half) (duty : Byte) (count : Half) (d c : Nat), s.Shaped → freq ≠ 0#16 →
    count ≠ 0#16 → resolve s.params pin = some (d, c) →
    ∃ t, exec (.pwmPulse pin freq duty count) s = .next t ∧
      t.chan d c = some ⟨.runningFinite count, some duty⟩ ∧
      t.dev[d]? = some ⟨some s.params.pwmMode, some freq, some 100#16⟩ ∧
      s.SiblingsAfterInit t d c ∧ s.KeepsOtherDevices t d ∧
      t.HoldsReply s.params.statusOk ∧ s.KeepsOtherBytes t ∧
      t = { s with ch := t.ch, dev := t.dev, draws := t.draws, reply := t.reply, replyValid := true,
                   req := Latch.empty, k := s.k + 1,
                   trace := s.trace ++
                     [.init d s.params.pwmMode freq 100#16, .setDuty d c duty, .runPulses d c count] }) ∧
  (∀ (pin : Byte) (freq : Half) (duty : Byte) (count : Half), FailsUnresolved (.pwmPulse pin freq duty count) pin) ∧
  ∀ s, OnExample s → ∃ i t, decode [0x01, 0x07, 0x03, 0xE8, 0x19, 0x00, 0x03] = .ok i ∧ exec i s = .next t ∧
    t.trace = s.trace ++ [.init 1 s.params.pwmMode 1000 100, .setDuty 1 1 25, .runPulses 1 1 3] ∧
    t.chan 1 1 = some ⟨.runningFinite 3, some 25⟩ ∧ t.HoldsReply s.params.statusOk

/-- 43_dispatcher.md R107: MALFORMED, for every frame shorter than seven bytes; the five-byte example. -/
def Obligations.MalformedRepliesFail : Prop :=
  (∀ frame : List Byte, frame.length < 7 → decode frame = .ok (.malformed frame.length)) ∧
  (∀ (s : State) (len : Nat), ∃ t, exec (.malformed len) s = .next t ∧
    t.HoldsReply s.params.statusFail ∧ s.KeepsOtherBytes t ∧
    t = { s with reply := t.reply, replyValid := true, req := Latch.empty, k := s.k + 1, history := t.history }) ∧
  decode [0x01, 0x03, 0x00, 0x64, 0x32] = .ok (.malformed 5)

/-- 43_dispatcher.md R108, 30_encoding.md R64: UNKNOWN, for each of the 255 other opcode bytes whatever follows. -/
def Obligations.UnknownOpcodeIsSilent : Prop :=
  (∀ (op : Byte) (rest : List Byte), op ≠ 0x01#8 → 6 ≤ rest.length → decode (op :: rest) = .ok (.unknown op)) ∧
  ∀ (s : State) (op : Byte), ∃ t, exec (.unknown op) s = .next t ∧
    t = { s with replyValid := false, req := Latch.empty, k := s.k + 1, history := t.history }

/-- 43_dispatcher.md R110: the same for each of rows 3 to 5; REG_EX's example, pin 9. -/
def Obligations.UnresolvedPinRepliesFail : Prop :=
  (∀ (i : Instr) (r : Request), requestOf i = some r → FailsUnresolved i r.pin) ∧
  ∀ s, OnExample s → ∃ i t, decode [0x01, 0x09, 0x00, 0x64, 0x32, 0x00, 0x00] = .ok i ∧ exec i s = .next t ∧
    t.trace = s.trace ∧ t.HoldsReply s.params.statusFail

/-- Every command ends, with REQ unwritten and the index advanced; nothing of REQ, the index, the causes raised before or the marks
is carried into it. Derived: that a command has its usual effect after a mark is log 25, beside 43_dispatcher.md R112. -/
def Obligations.EveryCommandEnds : Prop :=
  ∀ (i : Instr) (s : State), ∃ t, exec i s = .next t ∧ t.req = Latch.empty ∧ t.k = s.k + 1 ∧
    ∀ req k history faultSet refused,
      ∃ t', exec i { s with req := req, k := k, history := history, faultSet := faultSet, refused := refused } =
          .next t' ∧
        t' = { t with k := k + 1, history := t'.history, faultSet := faultSet, refused := refused }

/-- A failed or ignored command leaves channels, devices, TRACE and the free-value counter alone. Derived: 43_dispatcher.md R111
is marked derived. -/
def Obligations.FailedCommandTouchesNoChannel : Prop :=
  ∀ (i : Instr) (s t : State), exec i s = .next t →
    (∀ r d c, requestOf i = some r → resolve s.params r.pin ≠ some (d, c)) →
    t.ch = s.ch ∧ t.dev = s.dev ∧ t.trace = s.trace ∧ t.draws = s.draws

/-- 42_pwm_controller.md R95: frequency and duty reach the peripheral, and the records, exactly as the frame's bytes have them,
frequencies up to 65535 and duty above 100 too, end to end through the command port. -/
def Obligations.ValuesArePassedThrough : Prop :=
  ∀ (s : State) (b1 b2 b3 b4 b5 b6 : Byte) (rest : List Byte) (room d c : Nat), s.Shaped →
    admitted s.params (rest.length + 7) room = true → resolve s.params b1 = some (d, c) →
    b2.toNat * 256 + b3.toNat ≠ 0 →
    ∃ t e f, present (0x01#8 :: b1 :: b2 :: b3 :: b4 :: b5 :: b6 :: rest) room s = .next t ∧
      f.toNat = b2.toNat * 256 + b3.toNat ∧
      t.trace = s.trace ++ [.init d s.params.pwmMode f 100#16, .setDuty d c b4, e] ∧
      (t.dev[d]?).bind Device.freq = some f ∧ (t.chan d c).bind Channel.duty = some b4

/-- 42_pwm_controller.md R93: on a channel in any state a CONFIGURE acts as on an Idle one: the same calls, reply and new state,
no error, and a new count that is the command's own. -/
def Obligations.ConfigureSupersedesSilently : Prop :=
  ∀ (i : Instr) (r : Request) (s : State) (d c : Nat) (x : Channel), s.Shaped → requestOf i = some r →
    resolve s.params r.pin = some (d, c) →
    ∃ t t', exec i s = .next t ∧ exec i (s.updateChan d c fun _ => x) = .next t' ∧ t' = { t with ch := t'.ch } ∧
      (t'.chan d c).map Channel.run = (t.chan d c).map Channel.run ∧
      (r.freq ≠ 0#16 → t'.chan d c = t.chan d c) ∧
      (r.freq ≠ 0#16 → r.count ≠ 0#16 → (t'.chan d c).map Channel.run = some (.runningFinite r.count)) ∧
      (∀ d' c', ¬(d' = d ∧ c' = c) → t'.chan d' c' = t.chan d' c') ∧ t'.HoldsReply s.params.statusOk

/-- 42_pwm_controller.md R87: the branch depends on frequency and count only, in every state. -/
def Obligations.BranchDependsOnFrequencyAndCount : Prop :=
  ∀ (s : State) (d c : Nat) (f : Half) (du : Byte) (n : Half),
    (f = 0#16 → s.apply d c f du n = s.stopBranch d c) ∧
    (f ≠ 0#16 → n = 0#16 → s.apply d c f du n = ((s.initDevice d c f).setDutyStep d c du).startContinuous d c) ∧
    (f ≠ 0#16 → n ≠ 0#16 → s.apply d c f du n = ((s.initDevice d c f).setDutyStep d c du).startFinite d c n)

/-- `sibling_effect(d, c)` of 42_pwm_controller.md R94, the part of an init that concerns the other channels: nothing under PRESERVE;
under DRAW each sibling keeps its run state or becomes Idle and keeps its duty or has it unwritten, for every value of the free
draws; no call is recorded for them. Derived: R94 is the spec's open parameter (decision D12); the draws are log 3. -/
def Obligations.SiblingEffectTouchesOnlySiblings : Prop :=
  ∀ (s : State) (d c : Nat), s.SiblingsAfterInit (s.siblingEffect d c) d c ∧
    (s.siblingEffect d c).chan d c = s.chan d c ∧ s.KeepsOtherDevices (s.siblingEffect d c) d ∧
    s.siblingEffect d c = { s with ch := (s.siblingEffect d c).ch, draws := (s.siblingEffect d c).draws } ∧
    (s.params.siblingInit = .preserve → s.siblingEffect d c = s)

/-! ## Causes: 60_exceptions.md -/

/-- 60_exceptions.md R115, R116, R117: which frames meet which error and no others, whatever frequency, duty and count are, and how
each is handled. -/
def Obligations.ErrorsAreHandled : Prop :=
  ∀ (s : State) (frame : List Byte) (room : Nat), admitted s.params frame.length room = true →
    ((∃ n, decode frame = .ok (.malformed n)) ↔ frame.length < 7) ∧
    ((∃ op, decode frame = .ok (.unknown op)) ↔ 7 ≤ frame.length ∧ frame[0]? ≠ some 0x01#8) ∧
    ∃ t, present frame room s = .next t ∧
      (frame.length < 7 → t.HoldsReply s.params.statusFail ∧ s.KeepsOtherBytes t ∧
        t = { s with reply := t.reply, replyValid := true, req := Latch.empty, k := s.k + 1, history := t.history }) ∧
      (7 ≤ frame.length → frame[0]? ≠ some 0x01#8 →
        t = { s with replyValid := false, req := Latch.empty, k := s.k + 1, history := t.history }) ∧
      (∀ i r, decode frame = .ok i → requestOf i = some r → resolve s.params r.pin = none →
        t.HoldsReply s.params.statusFail ∧ s.KeepsOtherBytes t ∧
        t = { s with reply := t.reply, replyValid := true, req := Latch.empty, k := s.k + 1, history := t.history }) ∧
      (∀ i r, decode frame = .ok i → requestOf i = some r → resolve s.params r.pin ≠ none →
        t.HoldsReply s.params.statusOk ∧ t.replyValid = true ∧ t.history = s.history)

/-- Each error leaves its cause and recorded value in `history`, with the command's index, and a command without error leaves
none. Derived: that the recorded value is kept there is the model's choice (log 9) on 60_exceptions.md R114. -/
def Obligations.CausesAreRecorded : Prop :=
  ∀ (s : State) (frame : List Byte) (room : Nat), admitted s.params frame.length room = true →
    ∃ t, present frame room s = .next t ∧
      (∀ n, t.history = s.history ++ [⟨s.k, .malformedCommand n⟩] ↔ frame.length < 7 ∧ n = frame.length) ∧
      (∀ op, t.history = s.history ++ [⟨s.k, .unknownOpcode op⟩] ↔
        7 ≤ frame.length ∧ frame[0]? = some op ∧ op ≠ 0x01#8) ∧
      (∀ pin, t.history = s.history ++ [⟨s.k, .pinNotAvailable pin⟩] ↔
        ∃ i r, decode frame = .ok i ∧ requestOf i = some r ∧ resolve s.params r.pin = none ∧ r.pin = pin) ∧
      (t.history = s.history ↔
        ∃ i r, decode frame = .ok i ∧ requestOf i = some r ∧ resolve s.params r.pin ≠ none)

/-- A command raises at most one cause. Derived: 60_exceptions.md R119 is marked derived; `history` is log 9. -/
def Obligations.AtMostOneCauseACommand : Prop :=
  ∀ (i : Instr) (s t : State), exec i s = .next t →
    t.history = s.history ∨ ∃ cause, t.history = s.history ++ [⟨s.k, cause⟩] ∧ t.ch = s.ch ∧ t.trace = s.trace

/-- 60_exceptions.md R118: both surfaced causes leave the same reply bytes, from any two states of the same parameters, and every
command runs after either. -/
def Obligations.FailuresAreUniformAndNotFatal : Prop :=
  ∀ (s s' : State) (len : Nat) (i : Instr) (r : Request), s'.params = s.params → requestOf i = some r →
    resolve s'.params r.pin = none →
    ∃ t t', exec (.malformed len) s = .next t ∧ exec i s' = .next t' ∧
      t.HoldsReply s.params.statusFail ∧ t'.HoldsReply s.params.statusFail ∧
      ∀ j, (∃ u, exec j t = .next u) ∧ ∃ u, exec j t' = .next u

/-! ## Cycle events: 42_pwm_controller.md R96 to R99 -/

/-- A cycle event: one cycle fewer, Idle after the last, and nothing else changes. Derived: R96 and R97 are the spec's decision
D13 (R96 also marked derived); the schedule is log 4. -/
def Obligations.CycleEventCountsDown : Prop :=
  ∀ (s : State) (d c : Nat) (x : Channel) (n : Half) (rest : List Move), s.schedule = .cycle d c :: rest →
    s.chan d c = some x → x.run = .runningFinite n → n ≠ 0#16 →
    ∃ t y, step s = .next t ∧ t.chan d c = some y ∧ cycleEffect x y ∧
      (∀ d' c', ¬(d' = d ∧ c' = c) → t.chan d' c' = s.chan d' c') ∧
      t = { s with ch := t.ch, schedule := rest }

/-- No cycle event for a channel that is Idle or RunningContinuous, or has no record. Derived: R98 is the spec's decision D14; the
refusal of such a schedule is log 10. -/
def Obligations.NoCycleEventWithoutAFiniteRun : Prop :=
  ∀ (s : State) (d c : Nat) (rest : List Move), s.schedule = .cycle d c :: rest →
    (∀ x n, s.chan d c = some x → x.run ≠ .runningFinite n) → step s = .refused (.cycleNotEnabled d c)

/-- After exactly `n` cycle events a run of `n` cycles is Idle, and not before. Derived: R97 (decision D13), 10_state.md R21; the
schedule is log 4. -/
def Obligations.FiniteRunEndsAfterItsCycles : Prop :=
  ∀ (s : State) (d c : Nat) (n : Half) (du : Option Byte) (rest : List Move), n ≠ 0#16 →
    s.chan d c = some ⟨.runningFinite n, du⟩ →
    s.schedule = List.replicate n.toNat (.cycle d c) ++ rest →
    (∀ j, j < n.toNat → ∃ t : State, Host.Core.run Sys2Proof.core j s = .next t ∧
      t.chan d c = some ⟨.runningFinite (n - BitVec.ofNat 16 j), du⟩) ∧
    ∃ t : State, Host.Core.run Sys2Proof.core n.toNat s = .next t ∧ t.chan d c = some ⟨.idle, du⟩ ∧
      (∀ d' c', ¬(d' = d ∧ c' = c) → t.chan d' c' = s.chan d' c') ∧ t = { s with ch := t.ch, schedule := rest }

/-- With nothing scheduled every finite run comes to its end, in finitely many steps, and then no move is due; channels that are
not finite-running, every duty and every other cell stay. Derived: weak fairness, R99 (decision D13), and the end of a run,
70_reset_and_hazards.md R144 (D14); how the model takes the events due is log 6, that step then refuses noMoveDue is log 5, what
RunOver asks beyond R144 is log 26. -/
def Obligations.FiniteRunsDrainToIdle : Prop :=
  ∀ s : State, s.CountsLegal → s.schedule = [] →
    ∃ (n : Nat) (t : State), Host.Core.run Sys2Proof.core n s = .next t ∧ t.NoFiniteRun ∧
      step t = .refused .noMoveDue ∧ (s.Clean → t.RunOver) ∧ t = { s with ch := t.ch } ∧
      ∀ d c x, s.chan d c = some x → ∃ y, t.chan d c = some y ∧ y.duty = x.duty ∧
        ((∃ m, x.run = .runningFinite m) → y.run = .idle) ∧ ((∀ m, x.run ≠ .runningFinite m) → y.run = x.run)

/-! ## The step, the port and observations -/

/-- A presentation in the admitted set runs the decoded instruction, once its move is taken off the schedule; the move is all
the step adds (log 4). -/
def Obligations.StepRunsTheDecodedInstruction : Prop :=
  (∀ (s : State) (frame : List Byte) (room : Nat) (rest : List Move) (i : Instr),
    s.schedule = .present frame room :: rest → admitted s.params frame.length room = true → decode frame = .ok i →
    step s = exec i { s with schedule := rest }) ∧
  ∀ (s : State) (nbits w : Nat) (i : Instr), admitted s.params ((nbits + 7) / 8) 2 = true →
    decodeTableWord nbits w = some i → step (s.withFetchWord nbits w) = exec i s

/-- A command longer than MAX_CMD_LEN sets REFUSED and changes nothing else; a shorter one with a reply region under two bytes or a
registry with an undefined key sets REFUSED, advances the index and changes nothing else. Derived: 43_dispatcher.md R113
(decision D8), 70_reset_and_hazards.md R133 (D24), 10_state.md R17 (D1); how the three fit together is log 7. -/
def Obligations.UnadmittedPresentationIsRefused : Prop :=
  ∀ (s : State) (frame : List Byte) (room : Nat) (rest : List Move), s.schedule = .present frame room :: rest →
    (s.params.maxCmdLen < frame.length → step s = .next { s with schedule := rest, refused := true }) ∧
    (frame.length ≤ s.params.maxCmdLen → (room < 2 ∨ ∃ row ∈ s.params.registry, none ∈ row) →
      step s = .next { s with schedule := rest, refused := true, k := s.k + 1 })

/-- Observing a cell: an unwritten one enters its reason into FAULT, unless it is there already, a written one changes nothing, one
that does not exist or is not observable stops; and what each cell reads as. Derived: 00_scope.md R13 (decision D26),
43_dispatcher.md R109 (D6); the move is log 8, the stop log 20, the reason's naming a byte of the reply log 27. -/
def Obligations.ObservationMarksOnlyUnwrittenReads : Prop :=
  (∀ (s : State) (cell : Cell) (rest : List Move), s.schedule = .observe cell :: rest →
    (∀ v, s.readCell cell = .value v → step s = .next { s with schedule := rest }) ∧
    (s.readCell cell = .unwritten → FaultReason.unwrittenRead cell ∉ s.faultSet →
      step s = .next { s with schedule := rest, faultSet := s.faultSet ++ [.unwrittenRead cell] }) ∧
    (s.readCell cell = .unwritten → FaultReason.unwrittenRead cell ∈ s.faultSet →
      step s = .next { s with schedule := rest }) ∧
    (s.readCell cell = .notObservable → step s = .fault (.notObservable cell))) ∧
  (∀ (s : State) (a : Nat),
    (∀ v, a < 2 → Memory.read s.reply a = some v → s.readCell (.reply a) = .value (.byte v)) ∧
    (a < 2 → Memory.read s.reply a = none → s.readCell (.reply a) = .unwritten) ∧
    (2 ≤ a → s.readCell (.reply a) = .notObservable)) ∧
  (∀ (s : State) (d c : Nat),
    (∀ x, s.chan d c = some x → s.readCell (.run d c) = .value (.run x.run) ∧
      (∀ v, x.duty = some v → s.readCell (.duty d c) = .value (.byte v)) ∧
      (x.duty = none → s.readCell (.duty d c) = .unwritten)) ∧
    (s.chan d c = none → s.readCell (.run d c) = .notObservable ∧ s.readCell (.duty d c) = .notObservable)) ∧
  (∀ (s : State) (d : Nat),
    (∀ x, s.dev[d]? = some x →
      (∀ v, x.mode = some v → s.readCell (.mode d) = .value (.mode v)) ∧
      (x.mode = none → s.readCell (.mode d) = .unwritten) ∧
      (∀ v, x.freq = some v → s.readCell (.freq d) = .value (.half v)) ∧
      (x.freq = none → s.readCell (.freq d) = .unwritten) ∧
      (∀ v, x.res = some v → s.readCell (.res d) = .value (.half v)) ∧
      (x.res = none → s.readCell (.res d) = .unwritten)) ∧
    (s.dev[d]? = none → s.readCell (.mode d) = .notObservable ∧ s.readCell (.freq d) = .notObservable ∧
      s.readCell (.res d) = .notObservable)) ∧
  ∀ s : State, s.readCell .req = .notObservable

/-! ## Reset and invariants -/

/-- Reset leaves the cells as 10_state.md R30's table says, for any parameters, and no move is due (70_reset_and_hazards.md R130; that
step then refuses noMoveDue is log 5): decision D3, so derived. The fields `history`, `draws` and `schedule` are the model's own
(log 9, log 3, log 4), and State.reset's parameters are log 1 and log 2. -/
def Obligations.ResetLeavesTheLaunchState : Prop :=
  (∀ p : Params, (State.launch p).params = p ∧
    (∀ d c, (State.launch p).chan d c =
      if c < (p.registry[d]?.getD []).length then some ⟨.idle, none⟩ else none) ∧
    (∀ d, (State.launch p).dev[d]? = if d < p.registry.length then some ⟨none, none, none⟩ else none) ∧
    (State.launch p).req = Latch.empty ∧ (∀ a, Memory.read (State.launch p).reply a = none) ∧
    (State.launch p).replyValid = false ∧ (State.launch p).trace = [] ∧ (State.launch p).Clean ∧
    (State.launch p).k = 0 ∧ step (State.launch p) = .refused .noMoveDue) ∧
  State.reset = State.launch resetParams

/-- The invariant holds at reset, whatever the parameters. Derived: R30 is decision D3; the invariant gathers 10_state.md R21,
R23 to R26, R28, R29. -/
def Obligations.ResetMeetsInvariant : Prop := State.reset.Inv ∧ ∀ p : Params, (State.launch p).Inv

/-- Every step keeps the invariant: records fit the registry, no count is 0, device records are whole and legal, every call is
legal, REQ is unwritten between commands, REPLY is whole and canonical. Derived: gathered from 10_state.md R21, R23 to R29, R34 and
60_exceptions.md R123; several rest on decisions (D3, D6, D23, D28). -/
def Obligations.StepKeepsInvariant : Prop :=
  ∀ s t : State, s.Inv → step s = .next t → t.Inv

/-- 70_reset_and_hazards.md R131: reset takes the registry as it is configured, and no step changes it or another parameter. -/
def Obligations.RegistryIsNeverMutated : Prop :=
  (∀ p : Params, (State.launch p).params.registry = p.registry) ∧
  ∀ s t : State, step s = .next t → t.params = s.params

/-- FAULT only grows and REFUSED is never cleared. Derived: 10_state.md R35 is decision D26. -/
def Obligations.MarksAreNeverCleared : Prop :=
  ∀ s t : State, step s = .next t →
    (s.refused = true → t.refused = true) ∧ ∀ r ∈ s.faultSet, r ∈ t.faultSet

/-- TRACE only grows, and it grows only in an admitted command that is answered Ok. Derived: 10_state.md R27 (decision D28) and
43_dispatcher.md R111 (marked derived). -/
def Obligations.TraceGrowsOnlyWithOkReply : Prop :=
  ∀ s t : State, step s = .next t → ∃ calls, t.trace = s.trace ++ calls ∧
    (calls ≠ [] → (∃ frame room rest, s.schedule = .present frame room :: rest ∧
      admitted s.params frame.length room = true) ∧ t.replyValid = true ∧ t.HoldsReply s.params.statusOk)

/-- The command index counts the presentations, whatever becomes of them, but for those longer than MAX_CMD_LEN; no other move advances
it. Derived: 10_state.md R17 (decision D1), and 43_dispatcher.md R113 (D8) for a presentation that is too long; log 7. -/
def Obligations.IndexCountsPresentations : Prop :=
  ∀ s t : State, step s = .next t →
    t.k = s.k + match s.schedule with
      | .present frame _ :: _ => if s.params.maxCmdLen < frame.length then 0 else 1
      | _ => 0

/-- The complete transition relation of one channel (42_pwm_controller.md R102, marked derived): what a step leaves of each record,
by the move taken. With nothing scheduled one cycle event is taken (log 6). -/
def Obligations.ChannelTransitionRelation : Prop :=
  ∀ (s t : State) (d c : Nat) (x : Channel), s.CountsLegal → step s = .next t → s.chan d c = some x →
    ∃ y, t.chan d c = some y ∧
      match s.schedule with
      | [] => y = x ∨ cycleEffect x y
      | .observe _ :: _ => y = x
      | .cycle d' c' :: _ => if d' = d ∧ c' = c then cycleEffect x y else y = x
      | .present frame room :: _ =>
        if admitted s.params frame.length room then
          ∀ i, decode frame = .ok i → match requestOf i with
            | none => y = x
            | some r => configureEffect s.params r d c x y
        else y = x

/-- Under PRESERVE a channel becomes Idle only by a stop of that channel or by the last cycle of its finite run: the move is that
channel's cycle event, or nothing is scheduled and a cycle event is taken (log 6). Derived: 70_reset_and_hazards.md R132 is marked
derived, and PRESERVE is a value of an open parameter (D12). -/
def Obligations.IdleOnlyByStopOrLastCycle : Prop :=
  ∀ (s t : State) (d c : Nat) (x y : Channel), s.params.siblingInit = .preserve → step s = .next t →
    s.chan d c = some x → t.chan d c = some y → x.run ≠ .idle → y.run = .idle →
    (x.run = .runningFinite 1#16 ∧ ((∃ rest, s.schedule = .cycle d c :: rest) ∨ s.schedule = [])) ∨
    ∃ frame room rest pin duty count, s.schedule = .present frame room :: rest ∧
      decode frame = .ok (.pwmStop pin duty count) ∧ resolve s.params pin = some (d, c)

/-- No command reads channel or device state: from two states that differ only there, a command gives the same reply, calls,
causes and index. Derived: 00_scope.md R14 (decision D28), 70_reset_and_hazards.md R138 (marked derived). -/
def Obligations.NoCommandReadsChannelState : Prop :=
  ∀ (i : Instr) (s s' t t' : State), s' = { s with ch := s'.ch, dev := s'.dev } → exec i s = .next t →
    exec i s' = .next t' → t' = { t with ch := t'.ch, dev := t'.dev, draws := t'.draws }
end

