-- ==== Sys2Proof/Laws/Decode.lean ====
section
/-! SUPPORT. The two forms of decode its callers need: on a short frame, and on a frame of seven bytes and more. -/

namespace Sys2Proof

theorem decode_short {cmd : List Byte} (h : cmd.length < 7) : decode cmd = .ok (.malformed cmd.length) := by
  simp [decode, minCmdLen, h]

/-- No read of a frame of seven bytes or more leaves it. -/
theorem decode_seven (b0 b1 b2 b3 b4 b5 b6 : Byte) (rest : List Byte) :
    decode (b0 :: b1 :: b2 :: b3 :: b4 :: b5 :: b6 :: rest) =
      if b0 ≠ configureOpcode then .ok (.unknown b0)
      else .ok (configureRow b1 (bigEndian b2 b3) b4 (bigEndian b5 b6)) := by
  have h : ¬ (rest.length + 1 + 1 + 1 + 1 + 1 + 1 + 1 < minCmdLen) := by simp only [minCmdLen]; omega
  simp only [decode, List.length_cons, h, ↓reduceIte]
  rfl

/-- A frame of seven bytes or more has seven first bytes. -/
theorem frame_seven {cmd : List Byte} (h : 7 ≤ cmd.length) :
    ∃ b0 b1 b2 b3 b4 b5 b6 rest, cmd = b0 :: b1 :: b2 :: b3 :: b4 :: b5 :: b6 :: rest := by
  match cmd, h with
  | b0 :: b1 :: b2 :: b3 :: b4 :: b5 :: b6 :: rest, _ => exact ⟨b0, b1, b2, b3, b4, b5, b6, rest, rfl⟩

/-- The bytes of a value, put together again. -/
theorem bigEndian_bytes (v : Half) : bigEndian (highByte v) (lowByte v) = v := by
  apply BitVec.eq_of_toNat_eq
  simp only [bigEndian, highByte, lowByte, BitVec.toNat_or, BitVec.toNat_shiftLeft, BitVec.toNat_setWidth,
    BitVec.toNat_ushiftRight]
  have := v.isLt
  have e1 : v.toNat >>> 8 = v.toNat / 256 := Nat.shiftRight_eq_div_pow ..
  rw [e1, Nat.mod_eq_of_lt (a := v.toNat / 256) (b := 2 ^ 8) (by omega),
    Nat.mod_eq_of_lt (a := v.toNat / 256) (b := 2 ^ 16) (by omega),
    Nat.mod_eq_of_lt (a := v.toNat % 2 ^ 8) (b := 2 ^ 16) (by omega),
    Nat.mod_eq_of_lt (a := (v.toNat / 256) <<< 8) (by rw [Nat.shiftLeft_eq]; omega),
    ← Nat.shiftLeft_add_eq_or_of_lt (by omega : v.toNat % 2 ^ 8 < 2 ^ 8), Nat.shiftLeft_eq]
  omega

end Sys2Proof
end

