-- ==== Sys2Proof/Laws/State.lean ====
section
/-! SUPPORT. Each field after each update: true by definition, for simp. -/

namespace Sys2Proof.Machine

variable (s : State)

@[simp] theorem setReplyValid_params (b : Bool) : (s.setReplyValid b).params = s.params := rfl
@[simp] theorem setReplyValid_ch (b : Bool) : (s.setReplyValid b).ch = s.ch := rfl
@[simp] theorem setReplyValid_dev (b : Bool) : (s.setReplyValid b).dev = s.dev := rfl
@[simp] theorem setReplyValid_req (b : Bool) : (s.setReplyValid b).req = s.req := rfl
@[simp] theorem setReplyValid_reply (b : Bool) : (s.setReplyValid b).reply = s.reply := rfl
@[simp] theorem setReplyValid_replyValid (b : Bool) : (s.setReplyValid b).replyValid = b := rfl
@[simp] theorem setReplyValid_trace (b : Bool) : (s.setReplyValid b).trace = s.trace := rfl
@[simp] theorem setReplyValid_faultSet (b : Bool) : (s.setReplyValid b).faultSet = s.faultSet := rfl
@[simp] theorem setReplyValid_refused (b : Bool) : (s.setReplyValid b).refused = s.refused := rfl
@[simp] theorem setReplyValid_k (b : Bool) : (s.setReplyValid b).k = s.k := rfl
@[simp] theorem setReplyValid_history (b : Bool) : (s.setReplyValid b).history = s.history := rfl
@[simp] theorem setReplyValid_draws (b : Bool) : (s.setReplyValid b).draws = s.draws := rfl
@[simp] theorem setReplyValid_schedule (b : Bool) : (s.setReplyValid b).schedule = s.schedule := rfl

@[simp] theorem markFault_params (r : FaultReason) : (s.markFault r).params = s.params := rfl
@[simp] theorem markFault_ch (r : FaultReason) : (s.markFault r).ch = s.ch := rfl
@[simp] theorem markFault_dev (r : FaultReason) : (s.markFault r).dev = s.dev := rfl
@[simp] theorem markFault_req (r : FaultReason) : (s.markFault r).req = s.req := rfl
@[simp] theorem markFault_reply (r : FaultReason) : (s.markFault r).reply = s.reply := rfl
@[simp] theorem markFault_replyValid (r : FaultReason) : (s.markFault r).replyValid = s.replyValid := rfl
@[simp] theorem markFault_trace (r : FaultReason) : (s.markFault r).trace = s.trace := rfl
@[simp] theorem markFault_faultSet (r : FaultReason) : (s.markFault r).faultSet = if r ∈ s.faultSet then s.faultSet else s.faultSet ++ [r] := rfl
@[simp] theorem markFault_refused (r : FaultReason) : (s.markFault r).refused = s.refused := rfl
@[simp] theorem markFault_k (r : FaultReason) : (s.markFault r).k = s.k := rfl
@[simp] theorem markFault_history (r : FaultReason) : (s.markFault r).history = s.history := rfl
@[simp] theorem markFault_draws (r : FaultReason) : (s.markFault r).draws = s.draws := rfl
@[simp] theorem markFault_schedule (r : FaultReason) : (s.markFault r).schedule = s.schedule := rfl

@[simp] theorem markRefused_params : (s.markRefused).params = s.params := rfl
@[simp] theorem markRefused_ch : (s.markRefused).ch = s.ch := rfl
@[simp] theorem markRefused_dev : (s.markRefused).dev = s.dev := rfl
@[simp] theorem markRefused_req : (s.markRefused).req = s.req := rfl
@[simp] theorem markRefused_reply : (s.markRefused).reply = s.reply := rfl
@[simp] theorem markRefused_replyValid : (s.markRefused).replyValid = s.replyValid := rfl
@[simp] theorem markRefused_trace : (s.markRefused).trace = s.trace := rfl
@[simp] theorem markRefused_faultSet : (s.markRefused).faultSet = s.faultSet := rfl
@[simp] theorem markRefused_refused : (s.markRefused).refused = true := rfl
@[simp] theorem markRefused_k : (s.markRefused).k = s.k := rfl
@[simp] theorem markRefused_history : (s.markRefused).history = s.history := rfl
@[simp] theorem markRefused_draws : (s.markRefused).draws = s.draws := rfl
@[simp] theorem markRefused_schedule : (s.markRefused).schedule = s.schedule := rfl

@[simp] theorem updateChan_params (d c : Nat) (f : Channel → Channel) : (s.updateChan d c f).params = s.params := rfl
@[simp] theorem updateChan_ch (d c : Nat) (f : Channel → Channel) : (s.updateChan d c f).ch = s.ch.modify d (fun row => row.modify c f) := rfl
@[simp] theorem updateChan_dev (d c : Nat) (f : Channel → Channel) : (s.updateChan d c f).dev = s.dev := rfl
@[simp] theorem updateChan_req (d c : Nat) (f : Channel → Channel) : (s.updateChan d c f).req = s.req := rfl
@[simp] theorem updateChan_reply (d c : Nat) (f : Channel → Channel) : (s.updateChan d c f).reply = s.reply := rfl
@[simp] theorem updateChan_replyValid (d c : Nat) (f : Channel → Channel) : (s.updateChan d c f).replyValid = s.replyValid := rfl
@[simp] theorem updateChan_trace (d c : Nat) (f : Channel → Channel) : (s.updateChan d c f).trace = s.trace := rfl
@[simp] theorem updateChan_faultSet (d c : Nat) (f : Channel → Channel) : (s.updateChan d c f).faultSet = s.faultSet := rfl
@[simp] theorem updateChan_refused (d c : Nat) (f : Channel → Channel) : (s.updateChan d c f).refused = s.refused := rfl
@[simp] theorem updateChan_k (d c : Nat) (f : Channel → Channel) : (s.updateChan d c f).k = s.k := rfl
@[simp] theorem updateChan_history (d c : Nat) (f : Channel → Channel) : (s.updateChan d c f).history = s.history := rfl
@[simp] theorem updateChan_draws (d c : Nat) (f : Channel → Channel) : (s.updateChan d c f).draws = s.draws := rfl
@[simp] theorem updateChan_schedule (d c : Nat) (f : Channel → Channel) : (s.updateChan d c f).schedule = s.schedule := rfl

@[simp] theorem setRun_params (d c : Nat) (r : RunState) : (s.setRun d c r).params = s.params := rfl
@[simp] theorem setRun_dev (d c : Nat) (r : RunState) : (s.setRun d c r).dev = s.dev := rfl
@[simp] theorem setRun_req (d c : Nat) (r : RunState) : (s.setRun d c r).req = s.req := rfl
@[simp] theorem setRun_reply (d c : Nat) (r : RunState) : (s.setRun d c r).reply = s.reply := rfl
@[simp] theorem setRun_replyValid (d c : Nat) (r : RunState) : (s.setRun d c r).replyValid = s.replyValid := rfl
@[simp] theorem setRun_trace (d c : Nat) (r : RunState) : (s.setRun d c r).trace = s.trace := rfl
@[simp] theorem setRun_faultSet (d c : Nat) (r : RunState) : (s.setRun d c r).faultSet = s.faultSet := rfl
@[simp] theorem setRun_refused (d c : Nat) (r : RunState) : (s.setRun d c r).refused = s.refused := rfl
@[simp] theorem setRun_k (d c : Nat) (r : RunState) : (s.setRun d c r).k = s.k := rfl
@[simp] theorem setRun_history (d c : Nat) (r : RunState) : (s.setRun d c r).history = s.history := rfl
@[simp] theorem setRun_draws (d c : Nat) (r : RunState) : (s.setRun d c r).draws = s.draws := rfl
@[simp] theorem setRun_schedule (d c : Nat) (r : RunState) : (s.setRun d c r).schedule = s.schedule := rfl

@[simp] theorem setDuty_params (d c : Nat) (du : Byte) : (s.setDuty d c du).params = s.params := rfl
@[simp] theorem setDuty_dev (d c : Nat) (du : Byte) : (s.setDuty d c du).dev = s.dev := rfl
@[simp] theorem setDuty_req (d c : Nat) (du : Byte) : (s.setDuty d c du).req = s.req := rfl
@[simp] theorem setDuty_reply (d c : Nat) (du : Byte) : (s.setDuty d c du).reply = s.reply := rfl
@[simp] theorem setDuty_replyValid (d c : Nat) (du : Byte) : (s.setDuty d c du).replyValid = s.replyValid := rfl
@[simp] theorem setDuty_trace (d c : Nat) (du : Byte) : (s.setDuty d c du).trace = s.trace := rfl
@[simp] theorem setDuty_faultSet (d c : Nat) (du : Byte) : (s.setDuty d c du).faultSet = s.faultSet := rfl
@[simp] theorem setDuty_refused (d c : Nat) (du : Byte) : (s.setDuty d c du).refused = s.refused := rfl
@[simp] theorem setDuty_k (d c : Nat) (du : Byte) : (s.setDuty d c du).k = s.k := rfl
@[simp] theorem setDuty_history (d c : Nat) (du : Byte) : (s.setDuty d c du).history = s.history := rfl
@[simp] theorem setDuty_draws (d c : Nat) (du : Byte) : (s.setDuty d c du).draws = s.draws := rfl
@[simp] theorem setDuty_schedule (d c : Nat) (du : Byte) : (s.setDuty d c du).schedule = s.schedule := rfl

@[simp] theorem setDevice_params (d : Nat) (m : PwmMode) (f r : Half) : (s.setDevice d m f r).params = s.params := rfl
@[simp] theorem setDevice_ch (d : Nat) (m : PwmMode) (f r : Half) : (s.setDevice d m f r).ch = s.ch := rfl
@[simp] theorem setDevice_dev (d : Nat) (m : PwmMode) (f r : Half) : (s.setDevice d m f r).dev = s.dev.set d ⟨some m, some f, some r⟩ := rfl
@[simp] theorem setDevice_req (d : Nat) (m : PwmMode) (f r : Half) : (s.setDevice d m f r).req = s.req := rfl
@[simp] theorem setDevice_reply (d : Nat) (m : PwmMode) (f r : Half) : (s.setDevice d m f r).reply = s.reply := rfl
@[simp] theorem setDevice_replyValid (d : Nat) (m : PwmMode) (f r : Half) : (s.setDevice d m f r).replyValid = s.replyValid := rfl
@[simp] theorem setDevice_trace (d : Nat) (m : PwmMode) (f r : Half) : (s.setDevice d m f r).trace = s.trace := rfl
@[simp] theorem setDevice_faultSet (d : Nat) (m : PwmMode) (f r : Half) : (s.setDevice d m f r).faultSet = s.faultSet := rfl
@[simp] theorem setDevice_refused (d : Nat) (m : PwmMode) (f r : Half) : (s.setDevice d m f r).refused = s.refused := rfl
@[simp] theorem setDevice_k (d : Nat) (m : PwmMode) (f r : Half) : (s.setDevice d m f r).k = s.k := rfl
@[simp] theorem setDevice_history (d : Nat) (m : PwmMode) (f r : Half) : (s.setDevice d m f r).history = s.history := rfl
@[simp] theorem setDevice_draws (d : Nat) (m : PwmMode) (f r : Half) : (s.setDevice d m f r).draws = s.draws := rfl
@[simp] theorem setDevice_schedule (d : Nat) (m : PwmMode) (f r : Half) : (s.setDevice d m f r).schedule = s.schedule := rfl

@[simp] theorem call_params (e : Call) : (s.call e).params = s.params := rfl
@[simp] theorem call_ch (e : Call) : (s.call e).ch = s.ch := rfl
@[simp] theorem call_dev (e : Call) : (s.call e).dev = s.dev := rfl
@[simp] theorem call_req (e : Call) : (s.call e).req = s.req := rfl
@[simp] theorem call_reply (e : Call) : (s.call e).reply = s.reply := rfl
@[simp] theorem call_replyValid (e : Call) : (s.call e).replyValid = s.replyValid := rfl
@[simp] theorem call_trace (e : Call) : (s.call e).trace = s.trace ++ [e] := rfl
@[simp] theorem call_faultSet (e : Call) : (s.call e).faultSet = s.faultSet := rfl
@[simp] theorem call_refused (e : Call) : (s.call e).refused = s.refused := rfl
@[simp] theorem call_k (e : Call) : (s.call e).k = s.k := rfl
@[simp] theorem call_history (e : Call) : (s.call e).history = s.history := rfl
@[simp] theorem call_draws (e : Call) : (s.call e).draws = s.draws := rfl
@[simp] theorem call_schedule (e : Call) : (s.call e).schedule = s.schedule := rfl

@[simp] theorem replyWith_params (o : Status) : (s.replyWith o).params = s.params := rfl
@[simp] theorem replyWith_ch (o : Status) : (s.replyWith o).ch = s.ch := rfl
@[simp] theorem replyWith_dev (o : Status) : (s.replyWith o).dev = s.dev := rfl
@[simp] theorem replyWith_req (o : Status) : (s.replyWith o).req = s.req := rfl
@[simp] theorem replyWith_reply (o : Status) : (s.replyWith o).reply = Memory.write (Memory.write s.reply 0 (encodeReply s.params o).1) 1 (encodeReply s.params o).2 := rfl
@[simp] theorem replyWith_replyValid (o : Status) : (s.replyWith o).replyValid = true := rfl
@[simp] theorem replyWith_trace (o : Status) : (s.replyWith o).trace = s.trace := rfl
@[simp] theorem replyWith_faultSet (o : Status) : (s.replyWith o).faultSet = s.faultSet := rfl
@[simp] theorem replyWith_refused (o : Status) : (s.replyWith o).refused = s.refused := rfl
@[simp] theorem replyWith_k (o : Status) : (s.replyWith o).k = s.k := rfl
@[simp] theorem replyWith_history (o : Status) : (s.replyWith o).history = s.history := rfl
@[simp] theorem replyWith_draws (o : Status) : (s.replyWith o).draws = s.draws := rfl
@[simp] theorem replyWith_schedule (o : Status) : (s.replyWith o).schedule = s.schedule := rfl

@[simp] theorem nextIndex_params : (s.nextIndex).params = s.params := rfl
@[simp] theorem nextIndex_ch : (s.nextIndex).ch = s.ch := rfl
@[simp] theorem nextIndex_dev : (s.nextIndex).dev = s.dev := rfl
@[simp] theorem nextIndex_req : (s.nextIndex).req = s.req := rfl
@[simp] theorem nextIndex_reply : (s.nextIndex).reply = s.reply := rfl
@[simp] theorem nextIndex_replyValid : (s.nextIndex).replyValid = s.replyValid := rfl
@[simp] theorem nextIndex_trace : (s.nextIndex).trace = s.trace := rfl
@[simp] theorem nextIndex_faultSet : (s.nextIndex).faultSet = s.faultSet := rfl
@[simp] theorem nextIndex_refused : (s.nextIndex).refused = s.refused := rfl
@[simp] theorem nextIndex_k : (s.nextIndex).k = s.k + 1 := rfl
@[simp] theorem nextIndex_history : (s.nextIndex).history = s.history := rfl
@[simp] theorem nextIndex_draws : (s.nextIndex).draws = s.draws := rfl
@[simp] theorem nextIndex_schedule : (s.nextIndex).schedule = s.schedule := rfl

@[simp] theorem endCommand_params : (s.endCommand).params = s.params := rfl
@[simp] theorem endCommand_ch : (s.endCommand).ch = s.ch := rfl
@[simp] theorem endCommand_dev : (s.endCommand).dev = s.dev := rfl
@[simp] theorem endCommand_req : (s.endCommand).req = Latch.empty := rfl
@[simp] theorem endCommand_reply : (s.endCommand).reply = s.reply := rfl
@[simp] theorem endCommand_replyValid : (s.endCommand).replyValid = s.replyValid := rfl
@[simp] theorem endCommand_trace : (s.endCommand).trace = s.trace := rfl
@[simp] theorem endCommand_faultSet : (s.endCommand).faultSet = s.faultSet := rfl
@[simp] theorem endCommand_refused : (s.endCommand).refused = s.refused := rfl
@[simp] theorem endCommand_k : (s.endCommand).k = s.k + 1 := rfl
@[simp] theorem endCommand_history : (s.endCommand).history = s.history := rfl
@[simp] theorem endCommand_draws : (s.endCommand).draws = s.draws := rfl
@[simp] theorem endCommand_schedule : (s.endCommand).schedule = s.schedule := rfl

@[simp] theorem refusePresentation_params (len : Nat) : (s.refusePresentation len).params = s.params := by
  unfold State.refusePresentation; split <;> rfl
@[simp] theorem refusePresentation_ch (len : Nat) : (s.refusePresentation len).ch = s.ch := by
  unfold State.refusePresentation; split <;> rfl
@[simp] theorem refusePresentation_dev (len : Nat) : (s.refusePresentation len).dev = s.dev := by
  unfold State.refusePresentation; split <;> rfl
@[simp] theorem refusePresentation_req (len : Nat) : (s.refusePresentation len).req = s.req := by
  unfold State.refusePresentation; split <;> rfl
@[simp] theorem refusePresentation_reply (len : Nat) : (s.refusePresentation len).reply = s.reply := by
  unfold State.refusePresentation; split <;> rfl
@[simp] theorem refusePresentation_replyValid (len : Nat) : (s.refusePresentation len).replyValid = s.replyValid := by
  unfold State.refusePresentation; split <;> rfl
@[simp] theorem refusePresentation_trace (len : Nat) : (s.refusePresentation len).trace = s.trace := by
  unfold State.refusePresentation; split <;> rfl
@[simp] theorem refusePresentation_faultSet (len : Nat) : (s.refusePresentation len).faultSet = s.faultSet := by
  unfold State.refusePresentation; split <;> rfl
@[simp] theorem refusePresentation_refused (len : Nat) : (s.refusePresentation len).refused = true := by
  unfold State.refusePresentation; split <;> rfl
@[simp] theorem refusePresentation_k (len : Nat) : (s.refusePresentation len).k =
    if s.params.maxCmdLen < len then s.k else s.k + 1 := by
  unfold State.refusePresentation; split <;> rfl
@[simp] theorem refusePresentation_history (len : Nat) : (s.refusePresentation len).history = s.history := by
  unfold State.refusePresentation; split <;> rfl
@[simp] theorem refusePresentation_draws (len : Nat) : (s.refusePresentation len).draws = s.draws := by
  unfold State.refusePresentation; split <;> rfl
@[simp] theorem refusePresentation_schedule (len : Nat) : (s.refusePresentation len).schedule = s.schedule := by
  unfold State.refusePresentation; split <;> rfl

@[simp] theorem latchRequest_params (r : Request) : (s.latchRequest r).params = s.params := rfl
@[simp] theorem latchRequest_ch (r : Request) : (s.latchRequest r).ch = s.ch := rfl
@[simp] theorem latchRequest_dev (r : Request) : (s.latchRequest r).dev = s.dev := rfl
@[simp] theorem latchRequest_req (r : Request) : (s.latchRequest r).req = ⟨some r.pin, some r.freq, some r.duty, some r.count⟩ := rfl
@[simp] theorem latchRequest_reply (r : Request) : (s.latchRequest r).reply = s.reply := rfl
@[simp] theorem latchRequest_replyValid (r : Request) : (s.latchRequest r).replyValid = s.replyValid := rfl
@[simp] theorem latchRequest_trace (r : Request) : (s.latchRequest r).trace = s.trace := rfl
@[simp] theorem latchRequest_faultSet (r : Request) : (s.latchRequest r).faultSet = s.faultSet := rfl
@[simp] theorem latchRequest_refused (r : Request) : (s.latchRequest r).refused = s.refused := rfl
@[simp] theorem latchRequest_k (r : Request) : (s.latchRequest r).k = s.k := rfl
@[simp] theorem latchRequest_history (r : Request) : (s.latchRequest r).history = s.history := rfl
@[simp] theorem latchRequest_draws (r : Request) : (s.latchRequest r).draws = s.draws := rfl
@[simp] theorem latchRequest_schedule (r : Request) : (s.latchRequest r).schedule = s.schedule := rfl

@[simp] theorem siblingEffect_params (d c : Nat) : (s.siblingEffect d c).params = s.params := rfl
@[simp] theorem siblingEffect_dev (d c : Nat) : (s.siblingEffect d c).dev = s.dev := rfl
@[simp] theorem siblingEffect_req (d c : Nat) : (s.siblingEffect d c).req = s.req := rfl
@[simp] theorem siblingEffect_reply (d c : Nat) : (s.siblingEffect d c).reply = s.reply := rfl
@[simp] theorem siblingEffect_replyValid (d c : Nat) : (s.siblingEffect d c).replyValid = s.replyValid := rfl
@[simp] theorem siblingEffect_trace (d c : Nat) : (s.siblingEffect d c).trace = s.trace := rfl
@[simp] theorem siblingEffect_faultSet (d c : Nat) : (s.siblingEffect d c).faultSet = s.faultSet := rfl
@[simp] theorem siblingEffect_refused (d c : Nat) : (s.siblingEffect d c).refused = s.refused := rfl
@[simp] theorem siblingEffect_k (d c : Nat) : (s.siblingEffect d c).k = s.k := rfl
@[simp] theorem siblingEffect_history (d c : Nat) : (s.siblingEffect d c).history = s.history := rfl
@[simp] theorem siblingEffect_schedule (d c : Nat) : (s.siblingEffect d c).schedule = s.schedule := rfl

@[simp] theorem raise_params (cause : Cause) : (s.raise cause).params = s.params := by
  cases cause <;> rfl
@[simp] theorem raise_ch (cause : Cause) : (s.raise cause).ch = s.ch := by
  cases cause <;> rfl
@[simp] theorem raise_dev (cause : Cause) : (s.raise cause).dev = s.dev := by
  cases cause <;> rfl
@[simp] theorem raise_req (cause : Cause) : (s.raise cause).req = s.req := by
  cases cause <;> rfl
@[simp] theorem raise_trace (cause : Cause) : (s.raise cause).trace = s.trace := by
  cases cause <;> rfl
@[simp] theorem raise_faultSet (cause : Cause) : (s.raise cause).faultSet = s.faultSet := by
  cases cause <;> rfl
@[simp] theorem raise_refused (cause : Cause) : (s.raise cause).refused = s.refused := by
  cases cause <;> rfl
@[simp] theorem raise_k (cause : Cause) : (s.raise cause).k = s.k := by
  cases cause <;> rfl
@[simp] theorem raise_history (cause : Cause) : (s.raise cause).history = s.history ++ [⟨s.k, cause⟩] := by
  cases cause <;> rfl
@[simp] theorem raise_draws (cause : Cause) : (s.raise cause).draws = s.draws := by
  cases cause <;> rfl
@[simp] theorem raise_schedule (cause : Cause) : (s.raise cause).schedule = s.schedule := by
  cases cause <;> rfl

@[simp] theorem stopBranch_params (d c : Nat) : (s.stopBranch d c).params = s.params := rfl
@[simp] theorem stopBranch_dev (d c : Nat) : (s.stopBranch d c).dev = s.dev := rfl
@[simp] theorem stopBranch_req (d c : Nat) : (s.stopBranch d c).req = s.req := rfl
@[simp] theorem stopBranch_reply (d c : Nat) : (s.stopBranch d c).reply = s.reply := rfl
@[simp] theorem stopBranch_replyValid (d c : Nat) : (s.stopBranch d c).replyValid = s.replyValid := rfl
@[simp] theorem stopBranch_trace (d c : Nat) : (s.stopBranch d c).trace = s.trace ++ [.stop d c] := rfl
@[simp] theorem stopBranch_faultSet (d c : Nat) : (s.stopBranch d c).faultSet = s.faultSet := rfl
@[simp] theorem stopBranch_refused (d c : Nat) : (s.stopBranch d c).refused = s.refused := rfl
@[simp] theorem stopBranch_k (d c : Nat) : (s.stopBranch d c).k = s.k := rfl
@[simp] theorem stopBranch_history (d c : Nat) : (s.stopBranch d c).history = s.history := rfl
@[simp] theorem stopBranch_draws (d c : Nat) : (s.stopBranch d c).draws = s.draws := rfl
@[simp] theorem stopBranch_schedule (d c : Nat) : (s.stopBranch d c).schedule = s.schedule := rfl

@[simp] theorem initDevice_params (d c : Nat) (f : Half) : (s.initDevice d c f).params = s.params := rfl
@[simp] theorem initDevice_dev (d c : Nat) (f : Half) : (s.initDevice d c f).dev = s.dev.set d ⟨some s.params.pwmMode, some f, some resolution⟩ := rfl
@[simp] theorem initDevice_req (d c : Nat) (f : Half) : (s.initDevice d c f).req = s.req := rfl
@[simp] theorem initDevice_reply (d c : Nat) (f : Half) : (s.initDevice d c f).reply = s.reply := rfl
@[simp] theorem initDevice_replyValid (d c : Nat) (f : Half) : (s.initDevice d c f).replyValid = s.replyValid := rfl
@[simp] theorem initDevice_trace (d c : Nat) (f : Half) : (s.initDevice d c f).trace = s.trace ++ [.init d s.params.pwmMode f resolution] := rfl
@[simp] theorem initDevice_faultSet (d c : Nat) (f : Half) : (s.initDevice d c f).faultSet = s.faultSet := rfl
@[simp] theorem initDevice_refused (d c : Nat) (f : Half) : (s.initDevice d c f).refused = s.refused := rfl
@[simp] theorem initDevice_k (d c : Nat) (f : Half) : (s.initDevice d c f).k = s.k := rfl
@[simp] theorem initDevice_history (d c : Nat) (f : Half) : (s.initDevice d c f).history = s.history := rfl
@[simp] theorem initDevice_schedule (d c : Nat) (f : Half) : (s.initDevice d c f).schedule = s.schedule := rfl

@[simp] theorem setDutyStep_params (d c : Nat) (du : Byte) : (s.setDutyStep d c du).params = s.params := rfl
@[simp] theorem setDutyStep_dev (d c : Nat) (du : Byte) : (s.setDutyStep d c du).dev = s.dev := rfl
@[simp] theorem setDutyStep_req (d c : Nat) (du : Byte) : (s.setDutyStep d c du).req = s.req := rfl
@[simp] theorem setDutyStep_reply (d c : Nat) (du : Byte) : (s.setDutyStep d c du).reply = s.reply := rfl
@[simp] theorem setDutyStep_replyValid (d c : Nat) (du : Byte) : (s.setDutyStep d c du).replyValid = s.replyValid := rfl
@[simp] theorem setDutyStep_trace (d c : Nat) (du : Byte) : (s.setDutyStep d c du).trace = s.trace ++ [.setDuty d c du] := rfl
@[simp] theorem setDutyStep_faultSet (d c : Nat) (du : Byte) : (s.setDutyStep d c du).faultSet = s.faultSet := rfl
@[simp] theorem setDutyStep_refused (d c : Nat) (du : Byte) : (s.setDutyStep d c du).refused = s.refused := rfl
@[simp] theorem setDutyStep_k (d c : Nat) (du : Byte) : (s.setDutyStep d c du).k = s.k := rfl
@[simp] theorem setDutyStep_history (d c : Nat) (du : Byte) : (s.setDutyStep d c du).history = s.history := rfl
@[simp] theorem setDutyStep_draws (d c : Nat) (du : Byte) : (s.setDutyStep d c du).draws = s.draws := rfl
@[simp] theorem setDutyStep_schedule (d c : Nat) (du : Byte) : (s.setDutyStep d c du).schedule = s.schedule := rfl

@[simp] theorem startContinuous_params (d c : Nat) : (s.startContinuous d c).params = s.params := rfl
@[simp] theorem startContinuous_dev (d c : Nat) : (s.startContinuous d c).dev = s.dev := rfl
@[simp] theorem startContinuous_req (d c : Nat) : (s.startContinuous d c).req = s.req := rfl
@[simp] theorem startContinuous_reply (d c : Nat) : (s.startContinuous d c).reply = s.reply := rfl
@[simp] theorem startContinuous_replyValid (d c : Nat) : (s.startContinuous d c).replyValid = s.replyValid := rfl
@[simp] theorem startContinuous_trace (d c : Nat) : (s.startContinuous d c).trace = s.trace ++ [.start d c] := rfl
@[simp] theorem startContinuous_faultSet (d c : Nat) : (s.startContinuous d c).faultSet = s.faultSet := rfl
@[simp] theorem startContinuous_refused (d c : Nat) : (s.startContinuous d c).refused = s.refused := rfl
@[simp] theorem startContinuous_k (d c : Nat) : (s.startContinuous d c).k = s.k := rfl
@[simp] theorem startContinuous_history (d c : Nat) : (s.startContinuous d c).history = s.history := rfl
@[simp] theorem startContinuous_draws (d c : Nat) : (s.startContinuous d c).draws = s.draws := rfl
@[simp] theorem startContinuous_schedule (d c : Nat) : (s.startContinuous d c).schedule = s.schedule := rfl

@[simp] theorem startFinite_params (d c : Nat) (n : Half) : (s.startFinite d c n).params = s.params := rfl
@[simp] theorem startFinite_dev (d c : Nat) (n : Half) : (s.startFinite d c n).dev = s.dev := rfl
@[simp] theorem startFinite_req (d c : Nat) (n : Half) : (s.startFinite d c n).req = s.req := rfl
@[simp] theorem startFinite_reply (d c : Nat) (n : Half) : (s.startFinite d c n).reply = s.reply := rfl
@[simp] theorem startFinite_replyValid (d c : Nat) (n : Half) : (s.startFinite d c n).replyValid = s.replyValid := rfl
@[simp] theorem startFinite_trace (d c : Nat) (n : Half) : (s.startFinite d c n).trace = s.trace ++ [.runPulses d c n] := rfl
@[simp] theorem startFinite_faultSet (d c : Nat) (n : Half) : (s.startFinite d c n).faultSet = s.faultSet := rfl
@[simp] theorem startFinite_refused (d c : Nat) (n : Half) : (s.startFinite d c n).refused = s.refused := rfl
@[simp] theorem startFinite_k (d c : Nat) (n : Half) : (s.startFinite d c n).k = s.k := rfl
@[simp] theorem startFinite_history (d c : Nat) (n : Half) : (s.startFinite d c n).history = s.history := rfl
@[simp] theorem startFinite_draws (d c : Nat) (n : Half) : (s.startFinite d c n).draws = s.draws := rfl
@[simp] theorem startFinite_schedule (d c : Nat) (n : Half) : (s.startFinite d c n).schedule = s.schedule := rfl

@[simp] theorem apply_params (d c : Nat) (f : Half) (du : Byte) (n : Half) :
    (s.apply d c f du n).params = s.params := by
  simp only [State.apply]; split <;> (try split) <;> rfl
@[simp] theorem apply_req (d c : Nat) (f : Half) (du : Byte) (n : Half) :
    (s.apply d c f du n).req = s.req := by
  simp only [State.apply]; split <;> (try split) <;> rfl
@[simp] theorem apply_reply (d c : Nat) (f : Half) (du : Byte) (n : Half) :
    (s.apply d c f du n).reply = s.reply := by
  simp only [State.apply]; split <;> (try split) <;> rfl
@[simp] theorem apply_replyValid (d c : Nat) (f : Half) (du : Byte) (n : Half) :
    (s.apply d c f du n).replyValid = s.replyValid := by
  simp only [State.apply]; split <;> (try split) <;> rfl
@[simp] theorem apply_faultSet (d c : Nat) (f : Half) (du : Byte) (n : Half) :
    (s.apply d c f du n).faultSet = s.faultSet := by
  simp only [State.apply]; split <;> (try split) <;> rfl
@[simp] theorem apply_refused (d c : Nat) (f : Half) (du : Byte) (n : Half) :
    (s.apply d c f du n).refused = s.refused := by
  simp only [State.apply]; split <;> (try split) <;> rfl
@[simp] theorem apply_k (d c : Nat) (f : Half) (du : Byte) (n : Half) :
    (s.apply d c f du n).k = s.k := by
  simp only [State.apply]; split <;> (try split) <;> rfl
@[simp] theorem apply_history (d c : Nat) (f : Half) (du : Byte) (n : Half) :
    (s.apply d c f du n).history = s.history := by
  simp only [State.apply]; split <;> (try split) <;> rfl
@[simp] theorem apply_schedule (d c : Nat) (f : Half) (du : Byte) (n : Half) :
    (s.apply d c f du n).schedule = s.schedule := by
  simp only [State.apply]; split <;> (try split) <;> rfl

/-- Reading the latch gives the request just latched. -/
@[simp] theorem latched_latchRequest (r : Request) : (s.latchRequest r).latched = some r := rfl

end Sys2Proof.Machine
end

