-- ==== Sys2Proof/Laws/Ops.lean ====
section
/-! SUPPORT. What the shared operations do: the reply memory, channel records, the reply, raise, apply and dispatch. -/

namespace Sys2Proof.Machine

/-! ### The reply memory -/

@[simp] theorem Memory.read_write_same (m : Memory) (a : Nat) (v : Byte) :
    Memory.read (Memory.write m a v) a = some v := by
  induction m with
  | nil => simp [Memory.write, Memory.read]
  | cons cell rest ih =>
    obtain ⟨b, w⟩ := cell
    by_cases h1 : a < b
    · simp [Memory.write, Memory.read, h1]
    · by_cases h2 : a = b
      · simp [Memory.write, Memory.read, h2]
      · simp [Memory.write, Memory.read, h1, h2, ih]

@[simp] theorem Memory.read_write_other (m : Memory) {a b : Nat} (v : Byte) (h : b ≠ a) :
    Memory.read (Memory.write m a v) b = Memory.read m b := by
  induction m with
  | nil => simp [Memory.write, Memory.read, h]
  | cons cell rest ih =>
    obtain ⟨x, w⟩ := cell
    by_cases h1 : a < x
    · simp [Memory.write, Memory.read, h1, h]
    · by_cases h2 : a = x
      · subst h2; simp [Memory.write, Memory.read, h]
      · simp [Memory.write, Memory.read, h1, h2, ih]

/-- The canonical form as a chain, which list lemmas know. -/
theorem Memory.wf_iff (m : Memory) : Memory.wf m = true ↔ m.IsChain (fun x y => x.1 < y.1) := by
  induction m with
  | nil => simp [Memory.wf]
  | cons x rest ih =>
    cases rest with
    | nil => simp [Memory.wf]
    | cons y rest => obtain ⟨a, v⟩ := x; obtain ⟨b, w⟩ := y; simp [Memory.wf, ih]

theorem Memory.write_head (m : Memory) (a : Nat) (v : Byte) :
    ∀ y ∈ (Memory.write m a v).head?, y.1 = a ∨ y ∈ m.head? := by
  cases m with
  | nil => simp [Memory.write]
  | cons cell rest =>
    obtain ⟨b, w⟩ := cell
    simp only [Memory.write]
    split
    · simp
    · split <;> simp

/-- A write keeps the canonical form. -/
theorem Memory.wf_write (m : Memory) (a : Nat) (v : Byte) (h : Memory.wf m = true) :
    Memory.wf (Memory.write m a v) = true := by
  rw [Memory.wf_iff] at h ⊢
  induction m with
  | nil => simp [Memory.write]
  | cons cell rest ih =>
    obtain ⟨b, w⟩ := cell
    rw [List.isChain_cons] at h
    simp only [Memory.write]
    split
    next hlt => exact List.isChain_cons.2 ⟨by simpa using hlt, List.isChain_cons.2 h⟩
    next hlt =>
      split
      next heq => subst heq; exact List.isChain_cons.2 h
      next hne =>
        refine List.isChain_cons.2 ⟨fun y hy => ?_, ih h.2⟩
        rcases Memory.write_head rest a v y hy with hy | hy
        · simp only; omega
        · exact h.1 y hy

/-! ### Channel records -/

theorem State.chan_eq (s : State) (d c : Nat) : s.chan d c = (s.ch[d]?).bind (·[c]?) := by
  unfold State.chan; cases s.ch[d]? <;> rfl

@[simp] theorem chan_updateChan_same (s : State) (d c : Nat) (f : Channel → Channel) :
    (s.updateChan d c f).chan d c = (s.chan d c).map f := by
  simp only [State.chan_eq, updateChan_ch, List.getElem?_modify_eq]
  cases s.ch[d]? <;> simp

theorem chan_updateChan_other (s : State) {d c d' c' : Nat} (f : Channel → Channel) (h : ¬(d' = d ∧ c' = c)) :
    (s.updateChan d c f).chan d' c' = s.chan d' c' := by
  simp only [State.chan_eq, updateChan_ch, List.getElem?_modify]
  by_cases hd : d = d'
  · subst hd
    have hc : c ≠ c' := fun e => h ⟨rfl, e.symm⟩
    cases s.ch[d]? <;> simp [hc]
  · simp [hd]

/-- Two states with the same records show the same channel. -/
theorem chan_congr {s t : State} (h : s.ch = t.ch) (d c : Nat) : s.chan d c = t.chan d c := by
  simp [State.chan, h]

section
variable (s : State) (d' c' : Nat)

@[simp] theorem setReplyValid_chan (b : Bool) : (s.setReplyValid b).chan d' c' = s.chan d' c' := rfl
@[simp] theorem markFault_chan (r : FaultReason) : (s.markFault r).chan d' c' = s.chan d' c' := rfl
@[simp] theorem markRefused_chan : s.markRefused.chan d' c' = s.chan d' c' := rfl
@[simp] theorem setDevice_chan (d : Nat) (m : PwmMode) (f r : Half) :
    (s.setDevice d m f r).chan d' c' = s.chan d' c' := rfl
@[simp] theorem call_chan (e : Call) : (s.call e).chan d' c' = s.chan d' c' := rfl
@[simp] theorem replyWith_chan (o : Status) : (s.replyWith o).chan d' c' = s.chan d' c' := rfl
@[simp] theorem nextIndex_chan : s.nextIndex.chan d' c' = s.chan d' c' := rfl
@[simp] theorem endCommand_chan : s.endCommand.chan d' c' = s.chan d' c' := rfl
@[simp] theorem refusePresentation_chan (len : Nat) : (s.refusePresentation len).chan d' c' = s.chan d' c' := by
  unfold State.refusePresentation; split <;> rfl
@[simp] theorem latchRequest_chan (r : Request) : (s.latchRequest r).chan d' c' = s.chan d' c' := rfl
@[simp] theorem raise_chan (cause : Cause) : (s.raise cause).chan d' c' = s.chan d' c' := by cases cause <;> rfl

end

theorem updateChan_lengths (s : State) (d c : Nat) (f : Channel → Channel) :
    (s.updateChan d c f).ch.map List.length = s.ch.map List.length := by
  apply List.ext_getElem?
  intro i
  simp only [updateChan_ch, List.getElem?_map, List.getElem?_modify]
  split <;> cases s.ch[i]? <;> simp

/-- What is stored after a change was stored before or is a changed record. -/
theorem mem_updateChan {s : State} {d c : Nat} {f : Channel → Channel} {row : List Channel} {x : Channel}
    (hrow : row ∈ (s.updateChan d c f).ch) (hx : x ∈ row) :
    (∃ row' ∈ s.ch, x ∈ row') ∨ ∃ row' ∈ s.ch, ∃ y ∈ row', x = f y := by
  obtain ⟨i, hi⟩ := List.mem_iff_getElem?.1 hrow
  obtain ⟨j, hj⟩ := List.mem_iff_getElem?.1 hx
  simp only [updateChan_ch, List.getElem?_modify, Option.map_eq_map, Option.map_eq_some_iff] at hi
  obtain ⟨row', hr, rfl⟩ := hi
  have hmem := List.mem_of_getElem? hr
  by_cases hd : d = i
  · simp only [hd, ↓reduceIte, List.getElem?_modify, Option.map_eq_map, Option.map_eq_some_iff] at hj
    obtain ⟨y, hy, rfl⟩ := hj
    have hym := List.mem_of_getElem? hy
    by_cases hc : c = j
    · exact .inr ⟨row', hmem, y, hym, by simp [hc]⟩
    · exact .inl ⟨row', hmem, by simpa [hc] using hym⟩
  · simp only [hd, ↓reduceIte] at hj
    exact .inl ⟨row', hmem, List.mem_of_getElem? hj⟩

/-! ### The effect of an init on siblings -/

theorem siblingChannel_run (p : Params) (n i : Nat) (x : Channel) :
    (siblingChannel p n i x).run = x.run ∨ (siblingChannel p n i x).run = .idle := by
  unfold siblingChannel; split
  · exact .inl rfl
  · dsimp only; split <;> simp

theorem siblingChannel_duty (p : Params) (n i : Nat) (x : Channel) :
    (siblingChannel p n i x).duty = x.duty ∨ (siblingChannel p n i x).duty = none := by
  unfold siblingChannel; split
  · exact .inl rfl
  · dsimp only; split <;> simp

theorem siblingChannel_preserve {p : Params} (h : p.siblingInit = .preserve) (n i : Nat) (x : Channel) :
    siblingChannel p n i x = x := by
  unfold siblingChannel; rw [h]

@[simp] theorem siblingEffect_ch (s : State) (d c : Nat) :
    (s.siblingEffect d c).ch =
      s.ch.modify d fun row => row.mapIdx fun i x => if i = c then x else siblingChannel s.params s.draws i x := rfl

/-- Every channel after an init: its own device's siblings as `siblingChannel` says, all else as before. -/
theorem chan_siblingEffect (s : State) (d c d' c' : Nat) :
    (s.siblingEffect d c).chan d' c' =
      if d' = d ∧ c' ≠ c then (s.chan d' c').map (siblingChannel s.params s.draws c') else s.chan d' c' := by
  simp only [State.chan_eq, siblingEffect_ch, List.getElem?_modify]
  by_cases hd : d = d'
  · subst hd
    cases s.ch[d]? with
    | none => simp
    | some row =>
      by_cases hc : c' = c
      · cases row[c]? <;> simp [hc]
      · cases row[c']? <;> simp [hc]
  · have : ¬ (d' = d) := fun e => hd e.symm
    simp [hd, this]

theorem siblingEffect_lengths (s : State) (d c : Nat) :
    (s.siblingEffect d c).ch.map List.length = s.ch.map List.length := by
  apply List.ext_getElem?
  intro i
  simp only [siblingEffect_ch, List.getElem?_map, List.getElem?_modify]
  split <;> cases s.ch[i]? <;> simp

theorem mem_siblingEffect {s : State} {d c : Nat} {row : List Channel} {x : Channel}
    (hrow : row ∈ (s.siblingEffect d c).ch) (hx : x ∈ row) :
    ∃ row' ∈ s.ch, ∃ y ∈ row', x.run = y.run ∨ x.run = .idle := by
  obtain ⟨i, hi⟩ := List.mem_iff_getElem?.1 hrow
  obtain ⟨j, hj⟩ := List.mem_iff_getElem?.1 hx
  simp only [siblingEffect_ch, List.getElem?_modify, Option.map_eq_map, Option.map_eq_some_iff] at hi
  obtain ⟨row', hr, rfl⟩ := hi
  have hmem := List.mem_of_getElem? hr
  by_cases hd : d = i
  · simp only [hd, ↓reduceIte, List.getElem?_mapIdx, Option.map_eq_some_iff] at hj
    obtain ⟨y, hy, rfl⟩ := hj
    refine ⟨row', hmem, y, List.mem_of_getElem? hy, ?_⟩
    split
    · exact .inl rfl
    · exact siblingChannel_run ..
  · simp only [hd, ↓reduceIte] at hj
    exact ⟨row', hmem, x, List.mem_of_getElem? hj, .inl rfl⟩

/-! ### The reply and the causes -/

@[simp] theorem raise_reply_malformed (s : State) (n : Nat) :
    (s.raise (.malformedCommand n)).reply = (s.replyWith .fail).reply := rfl
@[simp] theorem raise_replyValid_malformed (s : State) (n : Nat) :
    (s.raise (.malformedCommand n)).replyValid = true := rfl
@[simp] theorem raise_reply_pin (s : State) (p : Byte) :
    (s.raise (.pinNotAvailable p)).reply = (s.replyWith .fail).reply := rfl
@[simp] theorem raise_replyValid_pin (s : State) (p : Byte) :
    (s.raise (.pinNotAvailable p)).replyValid = true := rfl
@[simp] theorem raise_reply_unknown (s : State) (op : Byte) :
    (s.raise (.unknownOpcode op)).reply = s.reply := rfl
@[simp] theorem raise_replyValid_unknown (s : State) (op : Byte) :
    (s.raise (.unknownOpcode op)).replyValid = false := rfl

@[simp] theorem encodeReply_fst (p : Params) (o : Status) : (encodeReply p o).1 = p.moduleId := by cases o <;> rfl
@[simp] theorem encodeReply_ok_snd (p : Params) : (encodeReply p .ok).2 = p.statusOk := rfl
@[simp] theorem encodeReply_fail_snd (p : Params) : (encodeReply p .fail).2 = p.statusFail := rfl

/-- After a reply write both bytes are the outcome's, and no other offset has changed. -/
theorem read_replyWith (s : State) (o : Status) (a : Nat) :
    Memory.read (s.replyWith o).reply a =
      if a = 0 then some (encodeReply s.params o).1
      else if a = 1 then some (encodeReply s.params o).2 else Memory.read s.reply a := by
  by_cases h0 : a = 0
  · subst h0; simp
  · by_cases h1 : a = 1
    · subst h1; simp
    · simp [h0, h1]

/-- A reply write over a legal region leaves exactly the two bytes. -/
theorem replyWith_reply_eq {s : State} (h : s.ReplyLegal) (o : Status) :
    (s.replyWith o).reply = [(0, (encodeReply s.params o).1), (1, (encodeReply s.params o).2)] := by
  rcases h with h | h | h <;> simp [h, Memory.write]

/-! ### apply and dispatch -/

theorem apply_stop (s : State) (d c : Nat) (du : Byte) (n : Half) :
    s.apply d c 0#16 du n = s.stopBranch d c := by simp [State.apply]

theorem apply_run (s : State) (d c : Nat) {f : Half} (du : Byte) (h : f ≠ 0#16) :
    s.apply d c f du 0#16 = ((s.initDevice d c f).setDutyStep d c du).startContinuous d c := by
  rw [State.apply, if_neg h]; rfl

theorem apply_pulse (s : State) (d c : Nat) {f : Half} (du : Byte) {n : Half} (h : f ≠ 0#16) (hn : n ≠ 0#16) :
    s.apply d c f du n = ((s.initDevice d c f).setDutyStep d c du).startFinite d c n := by
  rw [State.apply, if_neg h]; exact if_neg hn

theorem dispatch_latched (s : State) (r : Request) :
    (s.latchRequest r).dispatch =
      match resolve s.params r.pin with
      | none => (s.latchRequest r).raise (.pinNotAvailable r.pin)
      | some (d, c) => ((s.latchRequest r).apply d c r.freq r.duty r.count).replyWith .ok := by
  unfold State.dispatch; rw [latched_latchRequest]; rfl

/-- A CONFIGURE command whose pin does not resolve. -/
theorem configure_notFound {s : State} {r : Request} (h : resolve s.params r.pin = none) :
    configure r s = .next ((s.latchRequest r).raise (.pinNotAvailable r.pin)).endCommand := by
  simp [configure, dispatch_latched, h]

/-- A CONFIGURE command whose pin resolves. -/
theorem configure_found {s : State} {r : Request} {d c : Nat} (h : resolve s.params r.pin = some (d, c)) :
    configure r s = .next (((s.latchRequest r).apply d c r.freq r.duty r.count).replyWith .ok).endCommand := by
  simp [configure, dispatch_latched, h]

/-- The channel records after `stopBranch`: the channel is Idle, every other record is as before. -/
theorem chan_stopBranch (s : State) (d c d' c' : Nat) :
    (s.stopBranch d c).chan d' c' =
      if d' = d ∧ c' = c then (s.chan d' c').map (fun x => { x with run := .idle }) else s.chan d' c' := by
  unfold State.stopBranch State.setRun
  split
  next h => obtain ⟨rfl, rfl⟩ := h; rw [chan_updateChan_same]; rfl
  next h => rw [chan_updateChan_other _ _ h]; rfl

/-- The channel records after a run branch: the channel has the new state and duty, its siblings what R94 leaves them, every
other device's channel is as before. -/
theorem chan_runBranch (s : State) (d c : Nat) (f : Half) (du : Byte) (e : Call) (r : RunState) (d' c' : Nat) :
    ((((s.initDevice d c f).setDutyStep d c du).call e).setRun d c r).chan d' c' =
      if d' = d ∧ c' = c then (s.chan d' c').map (fun _ => ⟨r, some du⟩)
      else if d' = d then (s.chan d' c').map (siblingChannel s.params s.draws c') else s.chan d' c' := by
  unfold State.setRun
  by_cases h : d' = d ∧ c' = c
  · obtain ⟨rfl, rfl⟩ := h
    rw [chan_updateChan_same]
    have h1 : (((s.initDevice d' c' f).setDutyStep d' c' du).call e).chan d' c' =
        (((s.initDevice d' c' f).call (.setDuty d' c' du)).setDuty d' c' du).chan d' c' := rfl
    have h2 : ((s.initDevice d' c' f).call (.setDuty d' c' du)).chan d' c' = s.chan d' c' := by
      have : ((s.initDevice d' c' f).call (.setDuty d' c' du)).chan d' c' =
          (((s.call (.init d' s.params.pwmMode f resolution)).setDevice d' s.params.pwmMode f
            resolution).siblingEffect d' c').chan d' c' := rfl
      rw [this, chan_siblingEffect]; simp [State.chan]
    rw [h1]; unfold State.setDuty; rw [chan_updateChan_same, h2]
    cases s.chan d' c' <;> simp
  · rw [chan_updateChan_other _ _ h]
    have h1 : (((s.initDevice d c f).setDutyStep d c du).call e).chan d' c' =
        (((s.initDevice d c f).call (.setDuty d c du)).setDuty d c du).chan d' c' := rfl
    have h2 : ((s.initDevice d c f).call (.setDuty d c du)).chan d' c' =
        (((s.call (.init d s.params.pwmMode f resolution)).setDevice d s.params.pwmMode f
            resolution).siblingEffect d c).chan d' c' := rfl
    rw [h1]; unfold State.setDuty; rw [chan_updateChan_other _ _ h, h2, chan_siblingEffect]
    by_cases hd : d' = d
    · have hc : c' ≠ c := fun hc => h ⟨hd, hc⟩
      simp [hd, hc, State.chan]
    · simp [hd, State.chan]

/-- Every channel record after `apply`. -/
theorem chan_apply (s : State) (d c : Nat) (f : Half) (du : Byte) (n : Half) (d' c' : Nat) :
    (s.apply d c f du n).chan d' c' =
      if d' = d ∧ c' = c then
        (s.chan d' c').map fun x =>
          if f = 0#16 then { x with run := .idle }
          else if n = 0#16 then ⟨.runningContinuous, some du⟩ else ⟨.runningFinite n, some du⟩
      else if d' = d ∧ f ≠ 0#16 then (s.chan d' c').map (siblingChannel s.params s.draws c')
      else s.chan d' c' := by
  by_cases hf : f = 0#16
  · subst hf; rw [apply_stop, chan_stopBranch]; simp
  · by_cases hn : n = 0#16
    · subst hn; rw [apply_run _ _ _ _ hf, State.startContinuous, chan_runBranch]; simp [hf]
    · rw [apply_pulse _ _ _ _ hf hn, State.startFinite, chan_runBranch]; simp [hf, hn]

/-- The calls `apply` makes, in order. -/
theorem apply_trace (s : State) (d c : Nat) (f : Half) (du : Byte) (n : Half) :
    (s.apply d c f du n).trace =
      s.trace ++
        if f = 0#16 then [.stop d c]
        else [.init d s.params.pwmMode f resolution, .setDuty d c du,
          if n = 0#16 then .start d c else .runPulses d c n] := by
  by_cases hf : f = 0#16
  · subst hf; rw [apply_stop]; rfl
  · by_cases hn : n = 0#16
    · subst hn; rw [apply_run _ _ _ _ hf]; simp [hf]
    · rw [apply_pulse _ _ _ _ hf hn]; simp [hf, hn]

/-- The device records `apply` leaves. -/
theorem apply_dev (s : State) (d c : Nat) (f : Half) (du : Byte) (n : Half) :
    (s.apply d c f du n).dev =
      if f = 0#16 then s.dev else s.dev.set d ⟨some s.params.pwmMode, some f, some resolution⟩ := by
  by_cases hf : f = 0#16
  · subst hf; rw [apply_stop]; rfl
  · by_cases hn : n = 0#16
    · subst hn; rw [apply_run _ _ _ _ hf]; simp [hf]
    · rw [apply_pulse _ _ _ _ hf hn]; simp [hf]

end Sys2Proof.Machine
end

