-- ==== Sys2Proof/Laws/PerInstr.lean ====
section
/-! SUPPORT. Statements made for every instruction, one lemma a constructor. -/

namespace Sys2Proof.Laws

/-- The encoder lays an instruction out in a frame shorter than seven bytes exactly when it is a malformed one, whose recorded
length that is (30_encoding.md R58, R63). -/
def FrameLength.Statement (i : Instr) : Prop :=
  i.wf = true → ((encode i).length < 7 ↔ ∃ n, i = .malformed n) ∧ ∀ n, i = .malformed n → (encode i).length = n

theorem FrameLength.malformed (len : Nat) : FrameLength.Statement (.malformed len) := by
  intro h; simpa [Instr.wf, encode] using h

theorem FrameLength.unknown (opcode : Byte) : FrameLength.Statement (.unknown opcode) := by
  intro _; simp [encode]

theorem FrameLength.pwmStop (pin duty : Byte) (count : Half) : FrameLength.Statement (.pwmStop pin duty count) := by
  intro _; simp [encode, configureFrame]

theorem FrameLength.pwmRun (pin : Byte) (freq : Half) (duty : Byte) :
    FrameLength.Statement (.pwmRun pin freq duty) := by
  intro _; simp [encode, configureFrame]

theorem FrameLength.pwmPulse (pin : Byte) (freq : Half) (duty : Byte) (count : Half) :
    FrameLength.Statement (.pwmPulse pin freq duty count) := by
  intro _; simp [encode, configureFrame]

end Sys2Proof.Laws
end

