-- ==== Sys2Proof/Laws/Resolver.lean ====
section
/-! SUPPORT. What the resolver's searches find. -/

namespace Sys2Proof.Machine

/-- A search of one device's channels finds the first with the key, counted from `c`. -/
theorem findChannel_eq_some {key : Key} {row : List (Option Key)} {c c' : Nat} :
    findChannel key c row = some c' ↔
      ∃ i, c' = c + i ∧ row[i]? = some (some key) ∧ ∀ j < i, row[j]? ≠ some (some key) := by
  induction row generalizing c with
  | nil => simp [findChannel]
  | cons k rest ih =>
    simp only [findChannel]
    split
    next hk =>
      constructor
      · rintro ⟨⟩; exact ⟨0, by simp, by simp [hk], by simp⟩
      · rintro ⟨i, rfl, _, hmin⟩
        cases i with
        | zero => simp
        | succ i => exact absurd (by simp [hk]) (hmin 0 (by omega))
    next hk =>
      rw [ih]
      constructor
      · rintro ⟨i, rfl, hi, hmin⟩
        refine ⟨i + 1, by omega, by simpa using hi, fun j hj => ?_⟩
        cases j with
        | zero => simpa using hk
        | succ j => simpa using hmin j (by omega)
      · rintro ⟨i, rfl, hi, hmin⟩
        cases i with
        | zero => exact absurd (by simpa using hi) hk
        | succ i =>
          refine ⟨i, by omega, by simpa using hi, fun j hj => ?_⟩
          simpa using hmin (j + 1) (by omega)

/-- It finds none where no channel has the key. -/
theorem findChannel_eq_none {key : Key} {row : List (Option Key)} {c : Nat} :
    findChannel key c row = none ↔ ∀ i : Nat, row[i]? ≠ some (some key) := by
  induction row generalizing c with
  | nil => simp [findChannel]
  | cons k rest ih =>
    simp only [findChannel]
    split
    next hk => simp only [reduceCtorEq, false_iff]; intro h; exact h 0 (by simp [hk])
    next hk =>
      rw [ih]
      constructor
      · intro h i
        cases i with
        | zero => simpa using hk
        | succ i => simpa using h i
      · intro h i; simpa using h (i + 1)

theorem findDevice_found {key : Key} {rows : List (List (Option Key))} {d d' c' : Nat}
    (h : findDevice key d rows = some (d', c')) :
    ∃ i row, d' = d + i ∧ rows[i]? = some row ∧ row[c']? = some (some key) := by
  induction rows generalizing d with
  | nil => simp [findDevice] at h
  | cons row rest ih =>
    simp only [findDevice] at h
    split at h
    next c hc =>
      cases h
      obtain ⟨i, rfl, hi, _⟩ := findChannel_eq_some.1 hc
      exact ⟨0, row, by simp, by simp, by simpa using hi⟩
    next =>
      obtain ⟨i, row', rfl, hr, hk⟩ := ih h
      exact ⟨i + 1, row', by omega, by simpa using hr, hk⟩

/-- What the resolver returns is a registered pair with the pin's key. -/
theorem regKey_of_resolve {p : Params} {pin : Byte} {d c : Nat} (h : resolve p pin = some (d, c)) :
    regKey p d c = some (pinKey p pin) := by
  obtain ⟨i, row, hd, hr, hk⟩ := findDevice_found h
  have : d = i := by omega
  subst this
  simp [regKey, hr, hk]

/-- A registered device's number is below NUM_DEV. -/
theorem device_lt_of_regKey {p : Params} {d c : Nat} {key : Key} (h : regKey p d c = some key) :
    d < p.registry.length := by
  unfold regKey at h
  split at h
  next row hr => exact (List.getElem?_eq_some_iff.1 hr).1
  next => cases h

end Sys2Proof.Machine
end

