-- ==== Sys2Proof/Laws/Step.lean ====
section
/-! SUPPORT. Everything a command and a step can do, said once. -/

namespace Sys2Proof.Machine

/-- Rows 3 to 5 are one CONFIGURE command (43_dispatcher.md R103). -/
theorem exec_configure {i : Instr} {r : Request} (h : requestOf i = some r) (s : State) : exec i s = configure r s := by
  cases i <;> simp only [requestOf, reduceCtorEq, Option.some.injEq] at h <;> subst h <;> rfl

/-- The four things a command can do. -/
theorem exec_cases {i : Instr} {s t : State} (h : exec i s = .next t) :
    (∃ n, i = .malformed n ∧ t = (s.raise (.malformedCommand n)).endCommand) ∨
    (∃ op, i = .unknown op ∧ t = (s.raise (.unknownOpcode op)).endCommand) ∨
    (∃ r, requestOf i = some r ∧ resolve s.params r.pin = none ∧
      t = ((s.latchRequest r).raise (.pinNotAvailable r.pin)).endCommand) ∨
    (∃ r d c, requestOf i = some r ∧ resolve s.params r.pin = some (d, c) ∧
      t = (((s.latchRequest r).apply d c r.freq r.duty r.count).replyWith .ok).endCommand) := by
  have key : ∀ r, requestOf i = some r → configure r s = .next t →
      (resolve s.params r.pin = none ∧ t = ((s.latchRequest r).raise (.pinNotAvailable r.pin)).endCommand) ∨
      ∃ d c, resolve s.params r.pin = some (d, c) ∧
        t = (((s.latchRequest r).apply d c r.freq r.duty r.count).replyWith .ok).endCommand := by
    intro r _ hc
    cases hres : resolve s.params r.pin with
    | none => rw [configure_notFound hres] at hc; cases hc; exact .inl ⟨rfl, rfl⟩
    | some dc =>
      obtain ⟨d, c⟩ := dc
      rw [configure_found hres] at hc; cases hc; exact .inr ⟨d, c, rfl, rfl⟩
  cases i with
  | malformed n => cases h; exact .inl ⟨n, rfl, rfl⟩
  | unknown op => cases h; exact .inr (.inl ⟨op, rfl, rfl⟩)
  | _ =>
    rcases key _ rfl h with ⟨h1, h2⟩ | ⟨d, c, h1, h2⟩
    · exact .inr (.inr (.inl ⟨_, rfl, h1, h2⟩))
    · exact .inr (.inr (.inr ⟨_, d, c, rfl, h1, h2⟩))

/-- What a presentation must meet to be handled. -/
theorem admitted_iff (p : Params) (len room : Nat) :
    admitted p len room = true ↔ len ≤ p.maxCmdLen ∧ 2 ≤ room ∧ ∀ row ∈ p.registry, none ∉ row := by
  simp only [admitted, registryWf, Bool.and_eq_true, decide_eq_true_eq, List.all_eq_true, and_assoc]
  refine and_congr Iff.rfl (and_congr Iff.rfl (forall₂_congr fun row _ => ?_))
  constructor
  · intro h hn; exact absurd (h none hn) (by simp)
  · intro h k hk
    cases k with
    | none => exact absurd hk h
    | some k => rfl

/-- Everything the refusal of a presentation can do. -/
theorem refusePresentation_eq (len : Nat) (s : State) :
    s.refusePresentation len =
      { s with refused := true, k := if s.params.maxCmdLen < len then s.k else s.k + 1 } := by
  unfold State.refusePresentation; split <;> rfl

/-- An admitted frame runs its instruction. -/
theorem present_admitted {s : State} {frame : List Byte} {room : Nat} {i : Instr}
    (ha : admitted s.params frame.length room = true) (hd : decode frame = .ok i) :
    present frame room s = exec i s := by
  simp [present, ha, hd]

/-- The fields a row of a CONFIGURE frame was selected by are its request. -/
@[simp] theorem requestOf_configureRow (pin : Byte) (f : Half) (du : Byte) (n : Half) :
    requestOf (configureRow pin f du n) = some ⟨pin, f, du, n⟩ := by
  unfold configureRow
  split
  next h => subst h; rfl
  next =>
    split
    next h => subst h; rfl
    next => rfl

theorem enabled_iff (r : RunState) : r.enabled = true ↔ ∃ n, r = .runningFinite n ∧ n ≠ 0#16 := by
  cases r <;> simp [RunState.enabled]

/-- A cycle event is taken exactly on a channel with a nonzero finite count. -/
theorem cycleEvent_cases {d c : Nat} {s t : State} (h : cycleEvent d c s = .next t) :
    ∃ x, s.chan d c = some x ∧ x.run.enabled = true ∧ t = s.setRun d c x.run.afterCycle := by
  unfold cycleEvent at h
  split at h
  next => cases h
  next x hx =>
    split at h
    next hen => cases h; exact ⟨x, hx, hen, rfl⟩
    next => cases h

/-- The four things an admitted or unadmitted presentation, a cycle event and an observation can do. -/
theorem step_cases {s t : State} (h : step s = .next t) :
    (∃ frame room rest, s.schedule = .present frame room :: rest ∧ admitted s.params frame.length room = false ∧
      t = { s with schedule := rest, refused := true,
                   k := if s.params.maxCmdLen < frame.length then s.k else s.k + 1 }) ∨
    (∃ frame room rest i, s.schedule = .present frame room :: rest ∧ admitted s.params frame.length room = true ∧
      decode frame = .ok i ∧ exec i { s with schedule := rest } = .next t) ∨
    (∃ d c x rest, (s.schedule = .cycle d c :: rest ∨ s.schedule = [] ∧ rest = []) ∧ s.chan d c = some x ∧
      x.run.enabled = true ∧ t = ({ s with schedule := rest } : State).setRun d c x.run.afterCycle) ∨
    (∃ cell rest, s.schedule = .observe cell :: rest ∧
      (t = { s with schedule := rest } ∨
        s.readCell cell = .unwritten ∧ t = ({ s with schedule := rest } : State).markFault (.unwrittenRead cell))) := by
  unfold step at h
  split at h
  next hs =>
    unfold drain at h
    split at h
    next d c _ =>
      obtain ⟨x, hx, hen, rfl⟩ := cycleEvent_cases h
      refine .inr (.inr (.inl ⟨d, c, x, [], .inr ⟨hs, rfl⟩, hx, hen, ?_⟩))
      rw [← hs]
    next => cases h
  next m rest hs =>
    cases m with
    | present frame room =>
      simp only [takeMove, present] at h
      split at h
      next ha =>
        by_cases hl : frame.length < 7
        · rw [decode_short hl] at h
          exact .inr (.inl ⟨frame, room, rest, _, hs, ha, decode_short hl, h⟩)
        · obtain ⟨b0, b1, b2, b3, b4, b5, b6, r, rfl⟩ := frame_seven (Nat.le_of_not_lt hl)
          by_cases hop : b0 ≠ configureOpcode
          · have hd : decode (b0 :: b1 :: b2 :: b3 :: b4 :: b5 :: b6 :: r) = .ok (.unknown b0) := by
              rw [decode_seven, if_pos hop]
            rw [hd] at h
            exact .inr (.inl ⟨_, room, rest, _, hs, ha, hd, h⟩)
          · have hd : decode (b0 :: b1 :: b2 :: b3 :: b4 :: b5 :: b6 :: r) =
                .ok (configureRow b1 (bigEndian b2 b3) b4 (bigEndian b5 b6)) := by
              rw [decode_seven, if_neg hop]
            rw [hd] at h
            exact .inr (.inl ⟨_, room, rest, _, hs, ha, hd, h⟩)
      next ha => cases h; exact .inl ⟨frame, room, rest, hs, by simpa using ha, refusePresentation_eq _ _⟩
    | cycle d c =>
      obtain ⟨x, hx, hen, rfl⟩ := cycleEvent_cases h
      exact .inr (.inr (.inl ⟨d, c, x, rest, .inl hs, hx, hen, rfl⟩))
    | observe cell =>
      have hread : ({ s with schedule := rest } : State).readCell cell = s.readCell cell := by
        cases cell <;> rfl
      simp only [takeMove, observe, hread] at h
      split at h
      next => cases h; exact .inr (.inr (.inr ⟨cell, rest, hs, .inl rfl⟩))
      next hu => cases h; exact .inr (.inr (.inr ⟨cell, rest, hs, .inr ⟨hu, rfl⟩⟩))
      next => cases h

/-! ### The search for a cycle event that is due -/

theorem firstEnabledChannel_eq_none {c : Nat} {row : List Channel} :
    firstEnabledChannel c row = none ↔ ∀ x ∈ row, x.run.enabled = false := by
  induction row generalizing c with
  | nil => simp [firstEnabledChannel]
  | cons x rest ih => simp only [firstEnabledChannel]; split <;> simp_all

theorem firstEnabled_eq_none {d : Nat} {rows : List (List Channel)} :
    firstEnabled d rows = none ↔ ∀ row ∈ rows, ∀ x ∈ row, x.run.enabled = false := by
  induction rows generalizing d with
  | nil => simp [firstEnabled]
  | cons row rest ih =>
    simp only [firstEnabled]
    split
    next c hc =>
      have : ¬ (∀ x ∈ row, x.run.enabled = false) := by
        rw [← firstEnabledChannel_eq_none (c := 0), hc]; simp
      simp only [reduceCtorEq, List.forall_mem_cons, false_iff]; tauto
    next hc =>
      rw [ih, List.forall_mem_cons]; rw [firstEnabledChannel_eq_none] at hc; tauto

theorem firstEnabledChannel_found {c c' : Nat} {row : List Channel} (h : firstEnabledChannel c row = some c') :
    ∃ i x, c' = c + i ∧ row[i]? = some x ∧ x.run.enabled = true := by
  induction row generalizing c with
  | nil => simp [firstEnabledChannel] at h
  | cons x rest ih =>
    simp only [firstEnabledChannel] at h
    split at h
    next he => cases h; exact ⟨0, x, rfl, rfl, he⟩
    next => obtain ⟨i, y, h1, h2, h3⟩ := ih h; exact ⟨i + 1, y, by omega, by simpa using h2, h3⟩

/-- What the search finds is a channel whose cycle event is enabled. -/
theorem firstEnabled_found {s : State} {d c : Nat} (h : firstEnabled 0 s.ch = some (d, c)) :
    ∃ row x, s.ch[d]? = some row ∧ row[c]? = some x ∧ x.run.enabled = true := by
  have key : ∀ {n rows}, firstEnabled n rows = some (d, c) →
      ∃ (i : Nat) (row : List Channel) (x : Channel),
        d = n + i ∧ rows[i]? = some row ∧ row[c]? = some x ∧ x.run.enabled = true := by
    intro n rows h
    induction rows generalizing n with
    | nil => simp [firstEnabled] at h
    | cons row rest ih =>
      simp only [firstEnabled] at h
      split at h
      next c' hc =>
        cases h
        obtain ⟨i, x, rfl, h2, h3⟩ := firstEnabledChannel_found hc
        exact ⟨0, row, x, rfl, rfl, by simpa using h2, h3⟩
      next => obtain ⟨i, y, x, h1, h2, h3⟩ := ih h; exact ⟨i + 1, y, x, by omega, by simpa using h2, h3⟩
  obtain ⟨i, row, x, hi, hr, hx, he⟩ := key h
  have : d = i := by omega
  subst this
  exact ⟨row, x, hr, hx, he⟩

/-! ### Runs -/

@[simp] theorem run_zero (s : State) : Host.Core.run Sys2Proof.core 0 s = .next s := rfl

/-- A run whose first step is taken goes on from there. -/
theorem run_succ {s t : State} (h : step s = .next t) (n : Nat) :
    Host.Core.run Sys2Proof.core (n + 1) s = Host.Core.run Sys2Proof.core n t := by
  have h' : Sys2Proof.core.step s = .next t := h
  refine (Host.Core.run.eq_2 Sys2Proof.core s n).trans ?_
  rw [h']

/-- A run of `j` steps and then of `k` more. -/
theorem run_add {j : Nat} {s t : State} (h : Host.Core.run Sys2Proof.core j s = .next t) (k : Nat) :
    Host.Core.run Sys2Proof.core (j + k) s = Host.Core.run Sys2Proof.core k t := by
  induction j generalizing s with
  | zero => rw [run_zero] at h; cases h; rw [Nat.zero_add]
  | succ j ih =>
    cases hs : step s with
    | next u => rw [run_succ hs] at h; rw [Nat.add_right_comm, run_succ hs]; exact ih h
    | fault r =>
      have h' : Sys2Proof.core.step s = .fault r := hs
      have h2 := (Host.Core.run.eq_2 Sys2Proof.core s j).symm.trans h
      rw [h'] at h2; cases h2
    | refused r =>
      have h' : Sys2Proof.core.step s = .refused r := hs
      have h2 := (Host.Core.run.eq_2 Sys2Proof.core s j).symm.trans h
      rw [h'] at h2; cases h2

end Sys2Proof.Machine
end

