-- ==== Sys2Proof/Tests/Slice0.lean ====
section
/-! SUPPORT. Tests of single steps, with results from spec/95_test_vectors.md (its vector's name in each comment) or written out from
the rule named; and for each statement with hypotheses a state and operands that meet them. -/

open Sys2Proof Sys2Proof.Machine

namespace Sys2Proof.Tests

/-- The common setup of 95_test_vectors.md, with bytes of our own for its symbolic constants. -/
def setup : Params where
  registry := exampleRegistry
  pinKeys := []
  moduleId := 0x2A
  statusOk := 0xA0
  statusFail := 0xF0
  pwmMode := 5
  maxCmdLen := 16
  siblingInit := .preserve

/-- ResetIdle in that setup. -/
def start : State := State.launch setup

/-- The same with channel (0, 1) in a given state. -/
def withChannel (r : RunState) (duty : Option Byte) : State := start.updateChan 0 1 fun _ => ⟨r, duty⟩

/-- Under DRAW, with channel (0, 0) running. -/
def drawing : State :=
  (State.launch { setup with siblingInit := .draw }).updateChan 0 0 fun _ => ⟨.runningContinuous, some 30⟩

/-- With a schedule. -/
def scheduled (moves : List Move) (s : State) : State := { s with schedule := moves }

def nextOf : Host.Outcome State Fault Refusal → Option State
  | .next s => some s
  | _ => none

def refusalOf : Host.Outcome State Fault Refusal → Option Refusal
  | .refused r => some r
  | _ => none

def faultOf : Host.Outcome State Fault Refusal → Option Fault
  | .fault r => some r
  | _ => none

def okOf : Except FaultReason Instr → Option Instr
  | .ok i => some i
  | .error _ => none

/-! ### Well-formedness: an ill-formed term for each check (30_encoding.md R59) -/

theorem test_wf_malformed_seven_bytes : Instr.wf (.malformed 7) = false := by decide
theorem test_wf_unknown_configure : Instr.wf (.unknown 0x01) = false := by decide
theorem test_wf_run_without_frequency : Instr.wf (.pwmRun 3 0 50) = false := by decide
theorem test_wf_pulse_without_frequency : Instr.wf (.pwmPulse 3 0 50 1) = false := by decide
theorem test_wf_pulse_without_count : Instr.wf (.pwmPulse 3 100 50 0) = false := by decide
theorem test_wf_each_row : (Instr.wf (.malformed 0) && Instr.wf (.unknown 0) && Instr.wf (.pwmStop 3 0 0) &&
    Instr.wf (.pwmRun 3 1 0) && Instr.wf (.pwmPulse 3 1 0 1)) = true := by decide

/-! ### Decoding: every row by a word written out from 30_encoding.md's layout -/

/-- V-D1, V-D2, V-D3: the length first. -/
theorem test_decode_malformed : okOf (decode []) = some (.malformed 0) ∧
    okOf (decode [0x01, 0x03, 0x00, 0x64, 0x32, 0x00]) = some (.malformed 6) ∧
    okOf (decode [0x02, 0x03, 0x00, 0x64, 0x32, 0x00]) = some (.malformed 6) := by decide
/-- V-D6, V-D7. -/
theorem test_decode_unknown : okOf (decode [0x00, 0x03, 0x00, 0x64, 0x32, 0x00, 0x00]) = some (.unknown 0) ∧
    okOf (decode [0xFF, 0x03, 0x00, 0x64, 0x32, 0x00, 0x00]) = some (.unknown 255) := by decide
/-- V-D10. -/
theorem test_decode_stop : okOf (decode [0x01, 0x05, 0x00, 0x00, 0x64, 0x00, 0x01]) = some (.pwmStop 5 100 1) := by
  decide
/-- V-D4, V-D5, V-D11. -/
theorem test_decode_run : okOf (decode [0x01, 0x03, 0x00, 0x64, 0x32, 0x00, 0x00]) = some (.pwmRun 3 100 50) ∧
    okOf (decode [0x01, 0x03, 0x00, 0x64, 0x32, 0x00, 0x00, 0xFF]) = some (.pwmRun 3 100 50) ∧
    okOf (decode [0x01, 0x05, 0x00, 0x01, 0x00, 0x00, 0x00]) = some (.pwmRun 5 1 0) := by decide
/-- V-D8, V-D9. -/
theorem test_decode_pulse : okOf (decode [0x01, 0xFF, 0x01, 0x00, 0xC8, 0x01, 0x00]) = some (.pwmPulse 255 256 200 256) ∧
    okOf (decode [0x01, 0x00, 0xFF, 0xFF, 0x00, 0xFF, 0xFF]) = some (.pwmPulse 0 65535 0 65535) := by decide
/-- V-O1 to V-O5 by the table's numbering of W; the pattern's fields bit by bit: 00000001, pin, frequency, duty, count. -/
theorem test_decode_table_words : decodeTableWord 56 0x01030000320005 = some (.pwmStop 3 50 5) ∧
    decodeTableWord 56 0x01030064320000 = some (.pwmRun 3 100 50) ∧
    decodeTableWord 56 0x010703E8190003 = some (.pwmPulse 7 1000 25 3) ∧
    decodeTableWord 56 0x01030001000000 = some (.pwmRun 3 1 0) ∧
    decodeTableWord 56 0x02030064320000 = some (.unknown 2) ∧
    decodeTableWord 56 0b00000001000001110000001111101000000110010000000000000011 = some (.pwmPulse 7 1000 25 3) ∧
    decodeTableWord 0 0 = some (.malformed 0) := by decide
/-- 30_encoding.md R67's example and R65's refusals. -/
theorem test_assemble : assemble (.run 3 100 50) = some [0x01, 0x03, 0x00, 0x64, 0x32, 0x00, 0x00] ∧
    assemble (.stop 256) = none ∧ assemble (.pulse 3 100 50 0) = none ∧
    assemble (.frame [1, 3, 0]) = some [0x01, 0x03, 0x00] ∧ assemble (.frame [256]) = none := by decide

/-! ### The resolver: V-R1 to V-R8 -/

theorem test_resolve_first_match : resolve setup 2 = some (0, 0) ∧ resolve setup 3 = some (0, 1) ∧
    resolve setup 7 = some (1, 1) := by decide
theorem test_resolve_not_found : resolve setup 9 = none ∧ resolve setup 0 = none ∧ resolve setup 255 = none ∧
    resolve { setup with registry := [] } 3 = none := by decide
theorem test_resolve_noninjective_key : resolve { setup with pinKeys := [(19, 3)] } 19 = some (0, 1) := by decide

/-! ### The commands, one step each -/

/-- S1. -/
theorem test_run_continuous :
    (nextOf (exec (.pwmRun 3 100 50) start)).map (·.trace) =
      some [.init 0 5 100 100, .setDuty 0 1 50, .start 0 1] ∧
    (nextOf (exec (.pwmRun 3 100 50) start)).map (fun t => (t.chan 0 1, t.dev[0]?)) =
      some (some ⟨.runningContinuous, some 50⟩, some ⟨some 5, some 100, some 100⟩) ∧
    (nextOf (exec (.pwmRun 3 100 50) start)).map (fun t => (t.reply, t.replyValid, t.k)) =
      some ([(0, 0x2A), (1, 0xA0)], true, 1) := by decide
/-- V-C9: a running sibling keeps running under PRESERVE. -/
theorem test_run_preserves_sibling :
    (nextOf (exec (.pwmRun 3 500 50) (start.updateChan 0 0 fun _ => ⟨.runningContinuous, some 30⟩))).map
      (fun t => (t.chan 0 0, t.chan 0 1)) =
    some (some ⟨.runningContinuous, some 30⟩, some ⟨.runningContinuous, some 50⟩) := by decide
/-- 42_pwm_controller.md R94's example: under DRAW a running sibling stays or becomes Idle, and keeps its duty or loses it. -/
theorem test_run_draws_sibling :
    (nextOf (exec (.pwmRun 3 100 50) drawing)).map (fun t => (t.chan 0 0, t.chan 0 1, t.draws)) =
      some (some ⟨if Config.draw 0 then .idle else .runningContinuous, if Config.draw 1 then none else some 30⟩,
        some ⟨.runningContinuous, some 50⟩, 4) := rfl
/-- V-C3, V-H5: duty kept, duty and count of the frame ignored. -/
theorem test_stop_keeps_duty :
    (nextOf (exec (.pwmStop 3 77 9) (withChannel (.runningFinite 5) (some 10)))).map (fun t => (t.trace, t.chan 0 1)) =
      some ([.stop 0 1], some ⟨.idle, some 10⟩) ∧
    (nextOf (exec (.pwmStop 3 77 9) (withChannel (.runningFinite 5) (some 10)))).map (fun t => (t.dev, t.reply)) =
      some (start.dev, [(0, 0x2A), (1, 0xA0)]) := by decide
/-- V-H4: pin 9 has no channel. -/
theorem test_stop_unresolved :
    (nextOf (exec (.pwmStop 9 0 0) start)).map (fun t => (t.trace, t.ch)) = some ([], start.ch) ∧
    (nextOf (exec (.pwmStop 9 0 0) start)).map (fun t => (t.reply, t.history)) =
      some ([(0, 0x2A), (1, 0xF0)], [⟨0, .pinNotAvailable 9⟩]) := by decide
/-- V-C5: the new count replaces the old one. -/
theorem test_pulse_supersedes :
    (nextOf (exec (.pwmPulse 3 200 10 2) (withChannel (.runningFinite 5) none))).map
      (fun t => (t.trace, t.chan 0 1)) =
    some ([.init 0 5 200 100, .setDuty 0 1 10, .runPulses 0 1 2], some ⟨.runningFinite 2, some 10⟩) := by decide
/-- V-C7: the largest frequency and count, on the last channel of device 1. -/
theorem test_pulse_largest : (nextOf (exec (.pwmPulse 7 65535 0 65535) start)).map (fun t => (t.chan 1 1, t.dev[1]?)) =
    some (some ⟨.runningFinite 65535, some 0⟩, some ⟨some 5, some 65535, some 100⟩) := by decide
/-- V-H1. -/
theorem test_malformed_fails : (nextOf (exec (.malformed 6) start)).map
      (fun t => (t.reply, t.replyValid, t.trace, t.history)) =
    some ([(0, 0x2A), (1, 0xF0)], true, [], [⟨0, .malformedCommand 6⟩]) := by decide
/-- V-H2, V-H3: REPLY keeps its bytes, or stays unwritten. -/
theorem test_unknown_keeps_reply :
    (nextOf (exec (.unknown 2) { start with reply := [(0, 0x2A), (1, 0xA0)], replyValid := true })).map
      (fun t => (t.reply, t.replyValid, t.trace)) = some ([(0, 0x2A), (1, 0xA0)], false, []) ∧
    (nextOf (exec (.unknown 5) start)).map (fun t => (t.reply, t.replyValid)) = some ([], false) := by decide

/-! ### Cycle events, the port, observations, reset -/

/-- V-Y1, V-Y3, V-Y4. -/
theorem test_cycle_counts_down :
    (nextOf (step (scheduled [.cycle 0 1] (withChannel (.runningFinite 3) none)))).map (·.chan 0 1) =
      some (some ⟨.runningFinite 2, none⟩) ∧
    (nextOf (step (scheduled [.cycle 0 1] (withChannel (.runningFinite 1) (some 9))))).map
      (fun t => (t.chan 0 1, t.trace)) = some (some ⟨.idle, some 9⟩, []) ∧
    (nextOf (step (scheduled [.cycle 0 1] (withChannel (.runningFinite 65535) none)))).map (·.chan 0 1) =
      some (some ⟨.runningFinite 65534, none⟩) := by decide
/-- V-Y5, V-Y6. -/
theorem test_cycle_not_enabled : refusalOf (step (scheduled [.cycle 0 1] start)) = some (.cycleNotEnabled 0 1) ∧
    refusalOf (step (scheduled [.cycle 0 1] (withChannel .runningContinuous none))) =
      some (.cycleNotEnabled 0 1) := by decide
/-- 42_pwm_controller.md R99: with nothing scheduled the due cycle comes; 70_reset_and_hazards.md R144: else no move is due. -/
theorem test_drain : (nextOf (step (withChannel (.runningFinite 2) none))).map (·.chan 0 1) =
      some (some ⟨.runningFinite 1, none⟩) ∧
    refusalOf (step (withChannel .runningContinuous none)) = some .noMoveDue := by decide
/-- V-H6: 17 bytes against MAX_CMD_LEN 16. -/
theorem test_too_long_is_refused :
    nextOf (step (scheduled [.present (List.replicate 17 0x01) 2] start)) = some { start with refused := true } := by
  decide
/-- 70_reset_and_hazards.md R133 with 10_state.md R17: a reply region of one byte. -/
theorem test_small_reply_region_is_refused :
    nextOf (step (scheduled [.present [0x01, 0x03, 0x00, 0x64, 0x32, 0x00, 0x00] 1] start)) =
      some { start with refused := true, k := 1 } := by decide
/-- V-H7: trailing bytes are ignored. -/
theorem test_trailing_bytes :
    nextOf (step (scheduled [.present [0x01, 0x03, 0x00, 0x64, 0x32, 0x00, 0x00, 0xAA, 0xBB] 2] start)) =
      nextOf (exec (.pwmRun 3 100 50) start) := by decide
/-- 43_dispatcher.md R109: reading REPLY before any reply marks FAULT. -/
theorem test_observe_unwritten_reply : (nextOf (step (scheduled [.observe (.reply 0)] start))).map (·.faultSet) =
    some [.unwrittenRead (.reply 0)] := by decide
/-- 10_state.md R34: (2, 0) is no registered pair. -/
theorem test_observe_unregistered : faultOf (step (scheduled [.observe (.run 2 0)] start)) =
    some (.notObservable (.run 2 0)) := by decide
/-- The error causes' codes (60_exceptions.md R114) and the run states' (10_state.md R19). -/
theorem test_codes : [Cause.code (.malformedCommand 0), Cause.code (.unknownOpcode 0), Cause.code (.pinNotAvailable 0),
    RunState.code .idle, RunState.code .runningContinuous, RunState.code (.runningFinite 9)] = [1, 2, 3, 0, 1, 2] := by
  decide
/-- From reset, a presented command runs as the first step: the calls of S1. -/
theorem test_first_step_after_reset :
    (nextOf (step (State.reset.withFetchWord 56 0x01030064320000))).map (·.trace.length) = some 3 := by decide
/-- The two status constants at reset differ (00_scope.md R8), whatever they are. -/
theorem test_reset_statuses_differ : resetParams.statusFail ≠ resetParams.statusOk := by
  show Config.statusFail ≠ Config.statusOk
  unfold Config.statusFail
  split
  · exact fun h => absurd (congrArg (·.getLsbD 0) h) (by cases h2 : Config.statusOk[0] <;> simp [h2])
  · assumption

/-! ### Witnesses: for each statement with hypotheses, and each of its clauses, operands that meet them -/

/-- A frame that runs channel (0, 1). -/
def runFrame : List Byte := [0x01, 0x03, 0x00, 0x64, 0x32, 0x00, 0x00]

theorem witness_TwoByteFieldsAreBigEndian :
    ([0x00, 0x64] : List Byte)[0]? = some 0x00 ∧ ([0x00, 0x64] : List Byte)[0 + 1]? = some 0x64 := by decide
theorem witness_FrameSelectsItsRow :
    ([1, 3, 0, 0, 0, 0] : List Byte).length < 7 ∧ 7 ≤ runFrame.length ∧
    (0x02030064320000#56).extractLsb 55 48 ≠ 0x01#8 ∧
    ((0x01030000320005#56).extractLsb 55 48 = 0x01#8 ∧ (0x01030000320005#56).extractLsb 39 24 = 0#16) ∧
    ((0x01030001000000#56).extractLsb 55 48 = 0x01#8 ∧ (0x01030001000000#56).extractLsb 39 24 ≠ 0#16 ∧
      (0x01030001000000#56).extractLsb 15 0 = 0#16) ∧
    (0x01030001000001#56).extractLsb 55 48 = 0x01#8 ∧ (0x01030001000001#56).extractLsb 39 24 ≠ 0#16 ∧
      (0x01030001000001#56).extractLsb 15 0 ≠ 0#16 := by decide
theorem witness_RowsAreTheirMasks : frameWord runFrame = some 0x01030064320000#56 := by decide
theorem witness_LengthThenOpcodeIsChecked :
    (([1, 3, 0, 0, 0, 0] : List Byte).length < 7 ∧
      ([2, 3, 0, 0, 0, 0] : List Byte).length = ([1, 3, 0, 0, 0, 0] : List Byte).length) ∧
    ((0x00 : Byte) ≠ 0x01#8 ∧ 6 ≤ ([3, 0, 0, 0, 0, 0] : List Byte).length) ∧ 7 ≤ runFrame.length := by decide
theorem witness_TrailingBytesAreIgnored : 7 ≤ runFrame.length := by decide
theorem witness_DecodeUndoesEncode : Instr.wf (.malformed 6) = true ∧ Instr.wf (.unknown 0xFF) = true ∧
    Instr.wf (.pwmStop 255 255 65535) = true ∧ Instr.wf (.pwmRun 0 65535 0) = true ∧
    Instr.wf (.pwmPulse 0 1 255 1) = true := by decide
theorem witness_AssembledLinesDecodeToTheirRow :
    (255 < 256 ∧ 65535 < 65536 ∧ 255 < 256 ∧ 65535 < 65536) ∧
      ¬(256 < 256 ∧ 65535 < 65536 ∧ 255 < 256 ∧ 65535 < 65536) ∧ 256 ∈ [1, 256] ∧ 256 ≤ 256 := by decide
theorem witness_ResolverFindsFirstMatch :
    regKey setup 1 0 = some 3 ∧ regKey setup 0 1 = some 3 ∧ (0 < 1 ∨ 0 = 1 ∧ 1 < 0) := by decide
theorem witness_ResolverNotFoundExactlyWithoutMatch :
    ({ setup with registry := [] } : Params).registry = [] ∧
      ∀ row ∈ ({ setup with registry := [[], []] } : Params).registry, row = [] := by decide
theorem witness_ResolvedPinHasItsRecords : start.Shaped ∧ resolve start.params 7 = some (1, 1) := by decide
theorem witness_ReplyBytesOfEachOutcome : setup.statusFail ≠ setup.statusOk := by decide
theorem witness_ReplyWriteSetsBothBytes :
    Memory.wf start.reply = true ∧ Memory.wf [(0, 0x2A), (1, 0xA0)] = true := by decide
theorem witness_FailsUnresolved : resolve start.params 9 = none := by decide
theorem witness_OnExample : OnExample start := by decide
theorem witness_PwmStopStopsTheChannel : start.Shaped ∧ resolve start.params 3 = some (0, 1) := by decide
theorem witness_PwmRunStartsAContinuousRun :
    (withChannel (.runningFinite 5) none).Shaped ∧ (65535 : Half) ≠ 0#16 ∧
      resolve (withChannel (.runningFinite 5) none).params 3 = some (0, 1) ∧
    drawing.Shaped ∧ resolve drawing.params 3 = some (0, 1) := by decide
theorem witness_PwmPulseStartsAFiniteRun :
    start.Shaped ∧ (1 : Half) ≠ 0#16 ∧ (65535 : Half) ≠ 0#16 ∧ resolve start.params 7 = some (1, 1) := by decide
theorem witness_MalformedRepliesFail : ([1, 3, 0, 0, 0, 0] : List Byte).length < 7 := by decide
theorem witness_UnknownOpcodeIsSilent : (0x02 : Byte) ≠ 0x01#8 ∧ 6 ≤ ([3, 0, 0, 0, 0, 0] : List Byte).length := by decide
theorem witness_UnresolvedPinRepliesFail :
    requestOf (.pwmPulse 9 1 0 1) = some ⟨9, 1, 0, 1⟩ ∧ resolve start.params 9 = none := by decide
theorem witness_FailedCommandTouchesNoChannel :
    (nextOf (exec (.pwmRun 9 1 0) start)).isSome = true ∧
      ∀ r d c, requestOf (.pwmRun 9 1 0) = some r → resolve start.params r.pin ≠ some (d, c) := by
  refine ⟨by decide, fun r d c h => ?_⟩
  cases h
  have : resolve start.params 9 = none := by decide
  rw [this]; simp
theorem witness_ValuesArePassedThrough :
    start.Shaped ∧ admitted start.params (([] : List Byte).length + 7) 2 = true ∧ resolve start.params 3 = some (0, 1) ∧
      (0xFF : Byte).toNat * 256 + (0xFF : Byte).toNat ≠ 0 ∧ (0x00 : Byte).toNat * 256 + (0x01 : Byte).toNat ≠ 0 := by
  decide
theorem witness_ConfigureSupersedesSilently :
    (withChannel (.runningFinite 5) none).Shaped ∧ requestOf (.pwmPulse 3 200 10 2) = some ⟨3, 200, 10, 2⟩ ∧
      resolve (withChannel (.runningFinite 5) none).params 3 = some (0, 1) ∧ (200 : Half) ≠ 0#16 ∧ (2 : Half) ≠ 0#16 := by
  decide
theorem witness_BranchDependsOnFrequencyAndCount : (0 : Half) = 0#16 ∧ (1 : Half) ≠ 0#16 := by decide
theorem witness_SiblingEffectTouchesOnlySiblings :
    (start.params.siblingInit = .preserve ∧ (start.chan 0 0).isSome = true ∧ start.chan 0 2 = none) ∧
    drawing.params.siblingInit = .draw ∧ drawing.chan 0 0 = some ⟨.runningContinuous, some 30⟩ ∧
    (drawing.chan 0 1).isSome = true ∧ drawing.chan 0 2 = none := by decide
theorem witness_ErrorsAreHandled :
    admitted start.params ([1, 3, 0, 0, 0, 0] : List Byte).length 2 = true ∧
    (admitted start.params ([2, 3, 0, 0, 0, 0, 0] : List Byte).length 2 = true ∧
      ([2, 3, 0, 0, 0, 0, 0] : List Byte)[0]? ≠ some 0x01#8) ∧
    (okOf (decode [1, 9, 0, 1, 0, 0, 0]) = some (.pwmRun 9 1 0) ∧ requestOf (.pwmRun 9 1 0) = some ⟨9, 1, 0, 0⟩ ∧
      resolve start.params 9 = none) ∧
    okOf (decode runFrame) = some (.pwmRun 3 100 50) ∧ resolve start.params 3 ≠ none := by decide
theorem witness_CausesAreRecorded : admitted start.params runFrame.length 2 = true := by decide
theorem witness_AtMostOneCauseACommand : (nextOf (exec (.malformed 0) start)).isSome = true := by decide
theorem witness_FailuresAreUniformAndNotFatal :
    (withChannel .runningContinuous none).params = start.params ∧ requestOf (.pwmStop 9 0 0) = some ⟨9, 0, 0, 0⟩ ∧
      resolve (withChannel .runningContinuous none).params 9 = none := by decide
theorem witness_CycleEventCountsDown :
    (scheduled [.cycle 0 1] (withChannel (.runningFinite 1) none)).schedule = .cycle 0 1 :: [] ∧
    (scheduled [.cycle 0 1] (withChannel (.runningFinite 1) none)).chan 0 1 = some ⟨.runningFinite 1, none⟩ ∧
    (1 : Half) ≠ 0#16 ∧ (65535 : Half) ≠ 0#16 := by decide
theorem witness_NoCycleEventWithoutAFiniteRun :
    (scheduled [.cycle 0 1] start).schedule = .cycle 0 1 :: [] ∧
      ∀ x n, (scheduled [.cycle 0 1] start).chan 0 1 = some x → x.run ≠ .runningFinite n := by
  refine ⟨by decide, fun x n h => ?_⟩
  cases h; simp [Channel.initial]
theorem witness_FiniteRunEndsAfterItsCycles :
    (2 : Half) ≠ 0#16 ∧
    (scheduled [.cycle 0 1, .cycle 0 1] (withChannel (.runningFinite 2) none)).chan 0 1 = some ⟨.runningFinite 2, none⟩ ∧
    (scheduled [.cycle 0 1, .cycle 0 1] (withChannel (.runningFinite 2) none)).schedule =
      List.replicate (2 : Half).toNat (.cycle 0 1) ++ [] := by decide
theorem witness_FiniteRunsDrainToIdle :
    (withChannel (.runningFinite 65535) none).CountsLegal ∧ (withChannel (.runningFinite 65535) none).schedule = [] ∧
      (withChannel (.runningFinite 65535) none).Clean := by decide
theorem witness_StepRunsTheDecodedInstruction :
    (scheduled [.present runFrame 2] start).schedule = .present runFrame 2 :: [] ∧
    admitted (scheduled [.present runFrame 2] start).params runFrame.length 2 = true ∧
    okOf (decode runFrame) = some (.pwmRun 3 100 50) ∧ admitted start.params ((56 + 7) / 8) 2 = true ∧
    decodeTableWord 56 0x01030064320000 = some (.pwmRun 3 100 50) := by decide
theorem witness_UnadmittedPresentationIsRefused :
    start.params.maxCmdLen < (List.replicate 17 (0x01 : Byte)).length ∧
    ((List.replicate 16 (0x01 : Byte)).length ≤ start.params.maxCmdLen ∧ 1 < 2) ∧
    runFrame.length ≤ ({ setup with registry := [[some 2, none]] } : Params).maxCmdLen ∧
      ∃ row ∈ ({ setup with registry := [[some 2, none]] } : Params).registry, none ∈ row := by decide
theorem witness_ObservationMarksOnlyUnwrittenReads :
    (start.readCell (.reply 1) = .unwritten ∧ FaultReason.unwrittenRead (.reply 1) ∉ start.faultSet) ∧
    FaultReason.unwrittenRead (.reply 1) ∈ ({ start with faultSet := [.unwrittenRead (.reply 1)] } : State).faultSet ∧
    start.readCell (.run 1 1) = .value (.run .idle) ∧ start.readCell (.run 2 0) = .notObservable := by decide
theorem witness_ObservationMarksOnlyUnwrittenReads_cells :
    (Memory.read [(0, 0x2A), (1, 0xA0)] 1 = some 0xA0 ∧ Memory.read start.reply 1 = none) ∧
    (start.chan 1 1 = some ⟨.idle, none⟩ ∧ drawing.chan 0 0 = some ⟨.runningContinuous, some 30⟩ ∧
      start.chan 2 0 = none) ∧
    (start.dev[2]? = some ⟨none, none, none⟩ ∧ start.dev[3]? = none) ∧
    (start.setDevice 2 5 65535 100).dev[2]? = some ⟨some 5, some 65535, some 100⟩ := by decide
theorem witness_StepKeepsInvariant :
    (scheduled [.present runFrame 2] start).Inv ∧
      (nextOf (step (scheduled [.present runFrame 2] start))).isSome = true := by decide
theorem witness_RegistryIsNeverMutated : (nextOf (step (scheduled [.present runFrame 2] start))).isSome = true := by decide
theorem witness_MarksAreNeverCleared :
    (nextOf (step (scheduled [.present runFrame 2]
      { start with refused := true, faultSet := [.unwrittenRead (.reply 0)] }))).isSome = true := by decide
theorem witness_TraceGrowsOnlyWithOkReply :
    (nextOf (step (scheduled [.present runFrame 2] start))).map (fun t => t.trace.length - start.trace.length) = some 3 := by
  decide
theorem witness_IndexCountsPresentations :
    (nextOf (step (scheduled [.present runFrame 1] start))).isSome = true ∧
      (nextOf (step (scheduled [.present (List.replicate 17 0x01) 2] start))).isSome = true ∧
      (nextOf (step (scheduled [.present [] 2] start))).isSome = true := by decide
theorem witness_ChannelTransitionRelation :
    (scheduled [.present runFrame 2] start).CountsLegal ∧
    (nextOf (step (scheduled [.present runFrame 2] start))).isSome = true ∧
    (scheduled [.present runFrame 2] start).chan 0 1 = some ⟨.idle, none⟩ ∧
    (nextOf (step (scheduled [.cycle 0 1] (withChannel (.runningFinite 2) none)))).isSome = true ∧
    (nextOf (step (scheduled [.observe (.run 0 1)] start))).isSome = true ∧
    (nextOf (step (withChannel (.runningFinite 2) none))).isSome = true ∧
    (drawing.CountsLegal ∧ (nextOf (step (scheduled [.present runFrame 2] drawing))).isSome = true) := by decide
theorem witness_IdleOnlyByStopOrLastCycle :
    (scheduled [.cycle 0 1] (withChannel (.runningFinite 1) none)).params.siblingInit = .preserve ∧
    (withChannel (.runningFinite 1) none).chan 0 1 = some ⟨.runningFinite 1, none⟩ ∧
    (nextOf (step (scheduled [.cycle 0 1] (withChannel (.runningFinite 1) none)))).map (·.chan 0 1) =
      some (some ⟨.idle, none⟩) ∧
    (nextOf (step (withChannel (.runningFinite 1) none))).map (·.chan 0 1) = some (some ⟨.idle, none⟩) ∧
    (nextOf (step (scheduled [.present [0x01, 0x03, 0x00, 0x00, 0x00, 0x00, 0x00] 2]
      (withChannel .runningContinuous none)))).map (·.chan 0 1) = some (some ⟨.idle, none⟩) := by decide
theorem witness_NoCommandReadsChannelState :
    withChannel .runningContinuous none =
      { start with ch := (withChannel .runningContinuous none).ch, dev := (withChannel .runningContinuous none).dev } ∧
    (nextOf (exec (.pwmStop 3 0 0) start)).isSome = true ∧
    (nextOf (exec (.pwmStop 3 0 0) (withChannel .runningContinuous none))).isSome = true := by decide

end Sys2Proof.Tests
end

/-! Two-byte reads of the command space (20_memory.md R40): which value a read gives, and that value as a number. -/

namespace Sys2Proof

/-- The more significant byte stands first, as in the frame. -/
theorem bigEndian_eq_append (hi lo : Byte) : bigEndian hi lo = hi ++ lo := by
  rw [bigEndian, BitVec.append_def, BitVec.shiftLeftZeroExtend_eq, BitVec.setWidth'_eq]

/-- The two halves of the concatenation share no bit, so its `or` is a sum. -/
theorem bigEndian_toNat (hi lo : Byte) : (bigEndian hi lo).toNat = 256 * hi.toNat + lo.toNat := by
  rw [bigEndian_eq_append, BitVec.toNat_append, ← Nat.shiftLeft_add_eq_or_of_lt lo.isLt, Nat.shiftLeft_eq]
  omega

theorem memRead16_of_getElem? {cmd : List Byte} {a : Nat} {hi lo : Byte}
    (hhi : cmd[a]? = some hi) (hlo : cmd[a + 1]? = some lo) :
    memRead16 cmd a = .ok (bigEndian hi lo) := by
  simp only [memRead16, hhi, hlo]

/-- Settles O2: a read inside the frame gives `bigEndian hi lo`, whose value is the stated sum; the two frames of R40 are
instances. -/
theorem twoByteFieldsAreBigEndian : Obligations.TwoByteFieldsAreBigEndian := by
  refine ⟨fun cmd a hi lo hhi hlo => ?_, ?_, ?_⟩
  · exact ⟨bigEndian hi lo, memRead16_of_getElem? hhi hlo, rfl, bigEndian_toNat hi lo⟩
  · exact memRead16_of_getElem? (hi := 0x00) (lo := 0x64) rfl rfl
  · exact memRead16_of_getElem? (hi := 0x01) (lo := 0x00) rfl rfl

end Sys2Proof

/-! The codec's rows in terms of the frame word (30_encoding.md R54 to R62): the five fields as slices of `W`, the row they
select, and the masks of rows 3 to 5. -/

namespace Sys2Proof

/-! ### Which row the fields of a CONFIGURE frame select -/

section
variable {pin duty p du : Byte} {freq count f n : Half}

theorem configureRow_eq_pwmStop_iff :
    configureRow pin freq duty count = .pwmStop p du n ↔ freq = 0#16 ∧ pin = p ∧ duty = du ∧ count = n := by
  unfold configureRow
  split_ifs with hfreq hcount <;> simp [hfreq]

theorem configureRow_eq_pwmRun_iff :
    configureRow pin freq duty count = .pwmRun p f du ↔
      freq ≠ 0#16 ∧ count = 0#16 ∧ pin = p ∧ freq = f ∧ duty = du := by
  unfold configureRow
  split_ifs with hfreq hcount <;> simp [*]

theorem configureRow_eq_pwmPulse_iff :
    configureRow pin freq duty count = .pwmPulse p f du n ↔
      freq ≠ 0#16 ∧ count ≠ 0#16 ∧ pin = p ∧ freq = f ∧ duty = du ∧ count = n := by
  unfold configureRow
  split_ifs with hfreq hcount <;> simp [*]

end

/-- Settles O4: the row's request holds the pin and duty bytes as they are, and the big-endian halves as frequency and count. -/
theorem fieldsAreAssembledFromTheirBytes : Obligations.FieldsAreAssembledFromTheirBytes := by
  intro b1 b2 b3 b4 b5 b6 rest
  have hdecode : decode (0x01#8 :: b1 :: b2 :: b3 :: b4 :: b5 :: b6 :: rest) =
      .ok (configureRow b1 (bigEndian b2 b3) b4 (bigEndian b5 b6)) := decode_seven ..
  refine ⟨_, _, hdecode, Machine.requestOf_configureRow .., rfl, ?freq, rfl, ?count⟩
  case freq => rw [bigEndian_toNat, Nat.mul_comm]
  case count => rw [bigEndian_toNat, Nat.mul_comm]

/-! ### The frame word by its fields -/

/-- The frame word with these fields, in the order of R54. -/
def wordOfFields (op pin : Byte) (freq : Half) (duty : Byte) (count : Half) : BitVec 56 :=
  op ++ pin ++ freq ++ duty ++ count

theorem frameWord_seven (b0 b1 b2 b3 b4 b5 b6 : Byte) (rest : List Byte) :
    frameWord (b0 :: b1 :: b2 :: b3 :: b4 :: b5 :: b6 :: rest) =
      some (wordOfFields b0 b1 (bigEndian b2 b3) b4 (bigEndian b5 b6)) := by
  rw [frameWord, wordOfFields, bigEndian_eq_append, bigEndian_eq_append, BitVec.append_assoc', BitVec.append_assoc']
  rfl

/-- Only a frame of seven bytes or more has a frame word (R55). -/
theorem length_of_frameWord {cmd : List Byte} {w : BitVec 56} (h : frameWord cmd = some w) : 7 ≤ cmd.length := by
  unfold frameWord at h
  split at h
  · simp
  · cases h

section
variable (op pin : Byte) (freq : Half) (duty : Byte) (count : Half)

@[simp] theorem wordOfFields_opcode : (wordOfFields op pin freq duty count).extractLsb 55 48 = op := by
  unfold wordOfFields BitVec.extractLsb
  iterate 3 rw [BitVec.extractLsb'_append_eq_of_le (by decide)]
  exact BitVec.extractLsb'_append_eq_left

@[simp] theorem wordOfFields_pin : (wordOfFields op pin freq duty count).extractLsb 47 40 = pin := by
  unfold wordOfFields BitVec.extractLsb
  iterate 3 rw [BitVec.extractLsb'_append_eq_of_le (by decide)]
  exact BitVec.extractLsb'_append_eq_right

@[simp] theorem wordOfFields_freq : (wordOfFields op pin freq duty count).extractLsb 39 24 = freq := by
  unfold wordOfFields BitVec.extractLsb
  iterate 2 rw [BitVec.extractLsb'_append_eq_of_le (by decide)]
  exact BitVec.extractLsb'_append_eq_right

@[simp] theorem wordOfFields_duty : (wordOfFields op pin freq duty count).extractLsb 23 16 = duty := by
  unfold wordOfFields BitVec.extractLsb
  rw [BitVec.extractLsb'_append_eq_of_le (by decide)]
  exact BitVec.extractLsb'_append_eq_right

@[simp] theorem wordOfFields_count : (wordOfFields op pin freq duty count).extractLsb 15 0 = count :=
  BitVec.extractLsb'_append_eq_right

end

/-- The five fields cover all 56 bits. -/
theorem wordOfFields_extractLsb (w : BitVec 56) :
    wordOfFields (w.extractLsb 55 48) (w.extractLsb 47 40) (w.extractLsb 39 24) (w.extractLsb 23 16)
      (w.extractLsb 15 0) = w := by
  unfold wordOfFields BitVec.extractLsb
  iterate 4 rw [BitVec.extractLsb'_append_extractLsb'_eq_extractLsb' (by decide)]
  exact BitVec.extractLsb'_eq_self

/-! ### Masks, field by field -/

section
variable {op pin op' pin' duty duty' : Byte} {freq freq' count count' : Half}

theorem wordOfFields_and :
    wordOfFields op pin freq duty count &&& wordOfFields op' pin' freq' duty' count' =
      wordOfFields (op &&& op') (pin &&& pin') (freq &&& freq') (duty &&& duty') (count &&& count') := by
  simp only [wordOfFields, ← BitVec.and_append]

theorem wordOfFields_inj :
    wordOfFields op pin freq duty count = wordOfFields op' pin' freq' duty' count' ↔
      op = op' ∧ pin = pin' ∧ freq = freq' ∧ duty = duty' ∧ count = count' := by
  refine ⟨fun h => ⟨?_, ?_, ?_, ?_, ?_⟩, by rintro ⟨rfl, rfl, rfl, rfl, rfl⟩; rfl⟩
  · simpa using congrArg (·.extractLsb 55 48) h
  · simpa using congrArg (·.extractLsb 47 40) h
  · simpa using congrArg (·.extractLsb 39 24) h
  · simpa using congrArg (·.extractLsb 23 16) h
  · simpa using congrArg (·.extractLsb 15 0) h

/-- A match under a mask is a match of each field under its part of the mask. -/
theorem and_wordOfFields_eq_iff (w : BitVec 56) :
    w &&& wordOfFields op pin freq duty count = wordOfFields op' pin' freq' duty' count' ↔
      w.extractLsb 55 48 &&& op = op' ∧ w.extractLsb 47 40 &&& pin = pin' ∧ w.extractLsb 39 24 &&& freq = freq' ∧
        w.extractLsb 23 16 &&& duty = duty' ∧ w.extractLsb 15 0 &&& count = count' := by
  rw [← wordOfFields_inj, ← wordOfFields_and, wordOfFields_extractLsb]

end

theorem pwmStop_mask_iff (w : BitVec 56) :
    w &&& 0xFF00FFFF000000#56 = 0x01000000000000#56 ↔
      w.extractLsb 55 48 = configureOpcode ∧ w.extractLsb 39 24 = 0#16 := by
  calc _ ↔ w &&& wordOfFields (.allOnes 8) 0#8 (.allOnes 16) 0#8 0#16 =
        wordOfFields configureOpcode 0#8 0#16 0#8 0#16 := .rfl
    _ ↔ _ := by simp only [and_wordOfFields_eq_iff, BitVec.and_allOnes, BitVec.and_zero, and_true, true_and]

theorem pwmRun_mask_iff (w : BitVec 56) :
    w &&& 0xFF00000000FFFF#56 = 0x01000000000000#56 ↔
      w.extractLsb 55 48 = configureOpcode ∧ w.extractLsb 15 0 = 0#16 := by
  calc _ ↔ w &&& wordOfFields (.allOnes 8) 0#8 0#16 0#8 (.allOnes 16) =
        wordOfFields configureOpcode 0#8 0#16 0#8 0#16 := .rfl
    _ ↔ _ := by simp only [and_wordOfFields_eq_iff, BitVec.and_allOnes, BitVec.and_zero, true_and]

theorem pwmPulse_mask_iff (w : BitVec 56) :
    w &&& 0xFF000000000000#56 = 0x01000000000000#56 ↔ w.extractLsb 55 48 = configureOpcode := by
  calc _ ↔ w &&& wordOfFields (.allOnes 8) 0#8 0#16 0#8 0#16 =
        wordOfFields configureOpcode 0#8 0#16 0#8 0#16 := .rfl
    _ ↔ _ := by simp only [and_wordOfFields_eq_iff, BitVec.and_allOnes, BitVec.and_zero, and_true]

/-! ### The row the frame word selects -/

/-- Rows 3 to 5 of R59 for the fields of a frame word. -/
def rowOfWord (w : BitVec 56) : Instr :=
  configureRow (w.extractLsb 47 40) (w.extractLsb 39 24) (w.extractLsb 23 16) (w.extractLsb 15 0)

section
variable {cmd : List Byte} {w : BitVec 56}

/-- R59 for a frame of seven bytes or more: decode depends on the frame word and nothing else of the frame. -/
theorem decode_of_frameWord (hw : frameWord cmd = some w) :
    decode cmd = if w.extractLsb 55 48 ≠ configureOpcode then .ok (.unknown (w.extractLsb 55 48))
      else .ok (rowOfWord w) := by
  obtain ⟨b0, b1, b2, b3, b4, b5, b6, rest, rfl⟩ := frame_seven (length_of_frameWord hw)
  obtain rfl := Option.some.inj ((frameWord_seven ..).symm.trans hw)
  simp only [rowOfWord, decode_seven, wordOfFields_opcode, wordOfFields_pin, wordOfFields_freq, wordOfFields_duty,
    wordOfFields_count]

theorem decode_of_frameWord_unknown (hw : frameWord cmd = some w) (hop : w.extractLsb 55 48 ≠ configureOpcode) :
    decode cmd = .ok (.unknown (w.extractLsb 55 48)) := by
  rw [decode_of_frameWord hw, if_pos hop]

theorem decode_of_frameWord_configure (hw : frameWord cmd = some w) (hop : w.extractLsb 55 48 = configureOpcode) :
    decode cmd = .ok (rowOfWord w) := by
  rw [decode_of_frameWord hw, if_neg (not_not.2 hop)]

/-- With `decode_of_frameWord`: every row but UNKNOWN is reached through the CONFIGURE opcode. -/
theorem decode_eq_ok_iff_of_ne_unknown (hw : frameWord cmd = some w) {i : Instr} (hi : ∀ op, i ≠ .unknown op) :
    decode cmd = .ok i ↔ w.extractLsb 55 48 = configureOpcode ∧ rowOfWord w = i := by
  rw [decode_of_frameWord hw]
  split
  case isTrue hop => simp [hop, (hi _).symm]
  case isFalse hop => simp [not_not.1 hop]

end

/-- Settles O5: a short frame is row 1, and the frame word of a longer one decides among rows 2 to 5. -/
theorem frameSelectsItsRow : Obligations.FrameSelectsItsRow := by
  refine ⟨fun _ => decode_short, fun cmd hlen => ?_⟩
  obtain ⟨b0, b1, b2, b3, b4, b5, b6, rest, rfl⟩ := frame_seven hlen
  have hw := frameWord_seven b0 b1 b2 b3 b4 b5 b6 rest
  refine ⟨_, hw, fun hop => ?unknown, fun hop hfreq => ?stop, fun hop hfreq hcount => ?run,
    fun hop hfreq hcount => ?pulse⟩
  case unknown => exact decode_of_frameWord_unknown hw hop
  all_goals rw [decode_of_frameWord_configure hw hop, rowOfWord]
  case stop => exact congrArg _ (configureRow_eq_pwmStop_iff.2 ⟨hfreq, rfl, rfl, rfl⟩)
  case run => exact congrArg _ (configureRow_eq_pwmRun_iff.2 ⟨hfreq, hcount, rfl, rfl, rfl⟩)
  case pulse => exact congrArg _ (configureRow_eq_pwmPulse_iff.2 ⟨hfreq, hcount, rfl, rfl, rfl, rfl⟩)

/-- Settles O6: each mask compares the opcode and the fields the row fixes at 0, and with the extra conditions these are the
conditions under which the codec gives that row. -/
theorem rowsAreTheirMasks : Obligations.RowsAreTheirMasks := by
  intro cmd w hw
  refine ⟨?stop, ?run, ?pulse⟩
  case stop =>
    rw [pwmStop_mask_iff]
    simp [decode_eq_ok_iff_of_ne_unknown hw, rowOfWord, configureRow_eq_pwmStop_iff]
  case run =>
    rw [pwmRun_mask_iff, and_right_comm]
    simp [decode_eq_ok_iff_of_ne_unknown hw, rowOfWord, configureRow_eq_pwmRun_iff, and_assoc]
  case pulse =>
    rw [pwmPulse_mask_iff]
    simp [decode_eq_ok_iff_of_ne_unknown hw, rowOfWord, configureRow_eq_pwmPulse_iff]

end Sys2Proof

/-! What the resolver's search finds, in terms of the registry's keys (40_pin_resolver.md R69 to R72). -/

namespace Sys2Proof.Machine

section
variable {key : Key} {rows : List (List (Option Key))} {p : Params} {pin : Byte} {d c : Nat}

/-! ### The search over the devices -/

theorem findDevice_eq_none_iff :
    findDevice key d rows = none ↔ ∀ row ∈ rows, findChannel key 0 row = none := by
  induction rows generalizing d with
  | nil => simp [findDevice]
  | cons row rest ih =>
    simp only [findDevice, List.forall_mem_cons]
    split
    next c hc => simp [hc]
    next hc => simp [hc, ih]

/-- A search counted from `d` never goes back before `d`. -/
theorem le_of_findDevice {d' : Nat} (h : findDevice key d rows = some (d', c)) : d ≤ d' := by
  obtain ⟨i, _, rfl, _⟩ := findDevice_found h
  exact Nat.le_add_right d i

/-- The device found is the first whose own search finds a channel, and the channel is the one found there. -/
theorem findDevice_eq_some_iff {i : Nat} :
    findDevice key d rows = some (d + i, c) ↔
      (∃ row, rows[i]? = some row ∧ findChannel key 0 row = some c) ∧
        ∀ row ∈ rows.take i, findChannel key 0 row = none := by
  induction rows generalizing d i with
  | nil => simp [findDevice]
  | cons row rest ih =>
    simp only [findDevice]
    cases i with
    | zero =>
      split
      next c' hc => simp [hc]
      next hc =>
        have hpast : findDevice key (d + 1) rest ≠ some (d, c) := fun h => absurd (le_of_findDevice h) (by omega)
        simp [hc, hpast]
    | succ i =>
      split
      next c' hc => simp [hc]
      next hc =>
        have hcount : d + (i + 1) = d + 1 + i := by omega
        rw [hcount, ih]
        simp [hc]

/-! ### The registry's keys -/

theorem regKey_eq_some_iff :
    regKey p d c = some key ↔ ∃ row, p.registry[d]? = some row ∧ row[c]? = some (some key) := by
  unfold regKey
  split
  next row hrow => simp [hrow, Option.join_eq_some_iff]
  next hrow => simp [hrow]

/-- R72: a pin is not found exactly when no pair's key is its key. -/
theorem resolve_eq_none_iff : resolve p pin = none ↔ ∀ d c, regKey p d c ≠ some (pinKey p pin) := by
  simp only [resolve, findDevice_eq_none_iff, findChannel_eq_none]
  constructor
  · intro h d c hkey
    obtain ⟨row, hrow, hc⟩ := regKey_eq_some_iff.1 hkey
    exact h row (List.mem_of_getElem? hrow) c hc
  · intro h row hmem c hc
    obtain ⟨d, hrow⟩ := List.mem_iff_getElem?.1 hmem
    exact h d c (regKey_eq_some_iff.2 ⟨row, hrow, hc⟩)

/-- R69: no pair before the one returned, device first and then channel, has the pin's key. -/
theorem regKey_ne_of_before_resolve (h : resolve p pin = some (d, c)) {d' c' : Nat}
    (hbefore : d' < d ∨ d' = d ∧ c' < c) : regKey p d' c' ≠ some (pinKey p pin) := by
  intro hkey
  obtain ⟨row', hrow', hc'⟩ := regKey_eq_some_iff.1 hkey
  rw [resolve, ← Nat.zero_add d, findDevice_eq_some_iff] at h
  obtain ⟨⟨row, hrow, hfound⟩, hdevices⟩ := h
  obtain hd | ⟨rfl, hc⟩ := hbefore
  case inl =>
    have hmem : row' ∈ p.registry.take d := List.mem_of_getElem? (by rwa [List.getElem?_take_of_lt hd])
    exact findChannel_eq_none.1 (hdevices row' hmem) c' hc'
  case inr =>
    obtain rfl : row = row' := Option.some.inj (hrow.symm.trans hrow')
    obtain ⟨i, hi, _, hchannels⟩ := findChannel_eq_some.1 hfound
    exact hchannels c' (by omega) hc'

/-- R69: the pair returned is the first with the pin's key. Something is found because the first pair has the key, and it cannot
stand before the first pair (it has the key) nor after it (nothing before it has). -/
theorem resolve_eq_some_iff :
    resolve p pin = some (d, c) ↔ regKey p d c = some (pinKey p pin) ∧
      ∀ d' c', (d' < d ∨ d' = d ∧ c' < c) → regKey p d' c' ≠ some (pinKey p pin) := by
  refine ⟨fun h => ⟨regKey_of_resolve h, fun _ _ => regKey_ne_of_before_resolve h⟩, fun ⟨hkey, hfirst⟩ => ?_⟩
  cases hres : resolve p pin with
  | none => exact absurd hkey (resolve_eq_none_iff.1 hres d c)
  | some found =>
    obtain ⟨d', c'⟩ := found
    have hnotBefore : ¬ (d' < d ∨ d' = d ∧ c' < c) := fun hlt => hfirst d' c' hlt (regKey_of_resolve hres)
    have hnotAfter : ¬ (d < d' ∨ d = d' ∧ c < c') := fun hlt => regKey_ne_of_before_resolve hres hlt hkey
    obtain ⟨rfl, rfl⟩ : d' = d ∧ c' = c := by omega
    rfl

end

/-- Settles O11: the first clause is `resolve_eq_some_iff`; a pair with an earlier pair's key is not the first with any key. -/
theorem resolverFindsFirstMatch : Obligations.ResolverFindsFirstMatch := by
  refine ⟨fun _ _ _ _ => resolve_eq_some_iff, fun p d c d' c' key hkey hkey' hbefore pin hres => ?_⟩
  have hpin : key = pinKey p pin := Option.some.inj (hkey.symm.trans (regKey_of_resolve hres))
  exact regKey_ne_of_before_resolve hres hbefore (hpin ▸ hkey')

/-- Settles O12: the equivalence is `resolve_eq_none_iff`; without a channel in any device every search ends at once. -/
theorem resolverNotFoundExactlyWithoutMatch : Obligations.ResolverNotFoundExactlyWithoutMatch := by
  refine ⟨fun _ _ => resolve_eq_none_iff, fun p pin hempty => findDevice_eq_none_iff.2 fun row hmem => ?_⟩
  obtain hnil | hrows := hempty
  case inl => simp [hnil] at hmem
  case inr => rw [hrows row hmem, findChannel]

end Sys2Proof.Machine

/-! Rows 1 and 2 of the codec in terms of the frame (41_command_codec.md R75, R76): the frames that decode to MALFORMED and to
UNKNOWN are those of a length, and of a length and an opcode byte. -/

namespace Sys2Proof

section
variable {cmd rest : List Byte} {op : Byte}

/-- A CONFIGURE frame's row carries a request, so it is neither MALFORMED nor UNKNOWN. -/
theorem configureRow_ne_of_requestOf_eq_none {pin duty : Byte} {freq count : Half} {i : Instr}
    (hi : Machine.requestOf i = none) : configureRow pin freq duty count ≠ i := by
  rintro rfl
  simp at hi

theorem decode_eq_malformed_iff {n : Nat} : decode cmd = .ok (.malformed n) ↔ cmd.length < 7 ∧ cmd.length = n := by
  obtain hshort | hlong := Nat.lt_or_ge cmd.length 7
  case inl => simp [decode_short hshort, hshort]
  case inr =>
    obtain ⟨b0, b1, b2, b3, b4, b5, b6, rest, rfl⟩ := frame_seven hlong
    rw [decode_seven]
    split
    case isTrue => simp
    case isFalse => simp [configureRow_ne_of_requestOf_eq_none (i := .malformed n) rfl]

theorem decode_eq_unknown_iff :
    decode cmd = .ok (.unknown op) ↔ 7 ≤ cmd.length ∧ cmd[0]? = some op ∧ op ≠ configureOpcode := by
  obtain hshort | hlong := Nat.lt_or_ge cmd.length 7
  case inl => simp [decode_short hshort, hshort.not_ge]
  case inr =>
    obtain ⟨b0, b1, b2, b3, b4, b5, b6, rest, rfl⟩ := frame_seven hlong
    rw [decode_seven]
    split
    case isTrue hop =>
      have hstays : b0 = op → op ≠ configureOpcode := fun heq => heq ▸ hop
      simpa using hstays
    case isFalse hop =>
      have hother : b0 = op → op = configureOpcode := fun heq => heq ▸ not_not.1 hop
      simpa [configureRow_ne_of_requestOf_eq_none (i := .unknown op) rfl] using hother

/-- R76: past the length check the opcode byte alone settles UNKNOWN. -/
theorem decode_cons_of_ne_configure (hop : op ≠ configureOpcode) (hrest : 6 ≤ rest.length) :
    decode (op :: rest) = .ok (.unknown op) :=
  decode_eq_unknown_iff.2 ⟨Nat.succ_le_succ hrest, rfl, hop⟩

end

/-- Settles O7: a short frame's length and a longer frame's opcode other than 0x01 fix the result, whatever the other bytes; and by
the equivalences MALFORMED needs a short frame and UNKNOWN an opcode other than 0x01. -/
theorem lengthThenOpcodeIsChecked : Obligations.LengthThenOpcodeIsChecked := by
  refine ⟨fun cmd cmd' hshort hlen => ⟨decode_short hshort, ?sameLength⟩,
    fun op rest rest' hop hrest hrest' => ⟨decode_cons_of_ne_configure hop hrest, ?sameOpcode⟩,
    fun cmd hlong n hmalformed => ?notMalformed, fun rest _ op hunknown => ?notUnknown⟩
  case sameLength => rw [decode_short (hlen ▸ hshort), decode_short hshort, hlen]
  case sameOpcode => rw [decode_cons_of_ne_configure hop hrest, decode_cons_of_ne_configure hop hrest']
  case notMalformed => exact (decode_eq_malformed_iff.1 hmalformed).1.not_ge hlong
  case notUnknown =>
    obtain ⟨_, hfirst, hop⟩ := decode_eq_unknown_iff.1 hunknown
    exact hop (Option.some.inj hfirst).symm

end Sys2Proof

/-! The two replies (41_command_codec.md R83, R84). -/

namespace Sys2Proof.Machine

/-- Settles O14: both replies begin with the module's byte, so they differ as their status bytes do. -/
theorem replyBytesOfEachOutcome : Obligations.ReplyBytesOfEachOutcome := by
  refine fun p => ⟨rfl, rfl, fun hstatus hreply => hstatus ?_⟩
  calc p.statusFail = (encodeReply p .fail).2 := (encodeReply_fail_snd p).symm
    _ = (encodeReply p .ok).2 := congrArg Prod.snd hreply
    _ = p.statusOk := encodeReply_ok_snd p

end Sys2Proof.Machine

/-! What a CONFIGURE command leaves on a resolved pin (42_pwm_controller.md R87 to R95): its branch, the records it writes, and
what it takes over from the channel records before it. -/

namespace Sys2Proof.Machine

/-- Settles O26: one equation of `apply` per branch. -/
theorem branchDependsOnFrequencyAndCount : Obligations.BranchDependsOnFrequencyAndCount := by
  refine fun s d c f du n => ⟨fun hfreq => ?stop, fun hfreq hcount => ?run, fun hfreq hcount => ?pulse⟩
  case stop => rw [hfreq, apply_stop]
  case run => rw [hcount, apply_run s d c du hfreq]
  case pulse => exact apply_pulse s d c du hfreq hcount

/-! ### The records of a resolved pin (10_state.md R26) -/

section
variable {s : State} {pin : Byte} {d c : Nat}

/-- In a shaped state a device has as many channel records as the registry gives it keys. -/
theorem row_length_of_shaped (hshaped : s.Shaped) (d : Nat) :
    (s.ch[d]?).map List.length = (s.params.registry[d]?).map List.length := by
  rw [← List.getElem?_map, ← List.getElem?_map, hshaped.1]

theorem chan_isSome_of_regKey {key : Key} (hshaped : s.Shaped) (hkey : regKey s.params d c = some key) :
    (s.chan d c).isSome := by
  obtain ⟨row, hrow, hc⟩ := regKey_eq_some_iff.1 hkey
  obtain ⟨hlt, _⟩ := List.getElem?_eq_some_iff.1 hc
  have hlen := row_length_of_shaped hshaped d
  rw [hrow, Option.map_some, Option.map_eq_some_iff] at hlen
  obtain ⟨channels, hchannels, hlen⟩ := hlen
  simp [State.chan, hchannels, hlen, hlt]

theorem chan_isSome_of_resolve (hshaped : s.Shaped) (hres : resolve s.params pin = some (d, c)) :
    (s.chan d c).isSome :=
  chan_isSome_of_regKey hshaped (regKey_of_resolve hres)

theorem device_lt_of_resolve (hshaped : s.Shaped) (hres : resolve s.params pin = some (d, c)) : d < s.dev.length := by
  rw [hshaped.2]
  exact device_lt_of_regKey (regKey_of_resolve hres)

end

/-! ### The latched request is no operand of `apply` -/

theorem apply_latchRequest (s : State) (r : Request) (d c : Nat) (f : Half) (du : Byte) (n : Half) :
    (s.latchRequest r).apply d c f du n = (s.apply d c f du n).latchRequest r := by
  unfold State.apply
  split_ifs <;> rfl

/-- A CONFIGURE row on a resolved pin: `apply` with the fields of its request, the Ok reply, the end of the command (R103). -/
theorem exec_configure_found {i : Instr} {r : Request} {s : State} {d c : Nat} (hreq : requestOf i = some r)
    (hres : resolve s.params r.pin = some (d, c)) :
    exec i s = .next (((s.apply d c r.freq r.duty r.count).latchRequest r).replyWith .ok).endCommand := by
  rw [exec_configure hreq, configure_found hres, apply_latchRequest]

/-! ### Values passed through (R95) -/

/-- An admitted CONFIGURE frame runs the row its fields select (43_dispatcher.md R103). -/
theorem present_configure {s : State} {b1 b2 b3 b4 b5 b6 : Byte} {rest : List Byte} {room : Nat}
    (hadmitted : admitted s.params (rest.length + 7) room = true) :
    present (configureOpcode :: b1 :: b2 :: b3 :: b4 :: b5 :: b6 :: rest) room s =
      exec (configureRow b1 (bigEndian b2 b3) b4 (bigEndian b5 b6)) s :=
  present_admitted hadmitted (decode_seven ..)

/-- Settles O24: with a frequency, `apply` hands the frequency and the duty of the request to its calls and to the records. -/
theorem valuesArePassedThrough : Obligations.ValuesArePassedThrough := by
  intro s b1 b2 b3 b4 b5 b6 rest room d c hshaped hadmitted hres hne
  have hvalue : (bigEndian b2 b3).toNat = b2.toNat * 256 + b3.toNat := by rw [bigEndian_toNat, Nat.mul_comm]
  have hfreq : bigEndian b2 b3 ≠ 0#16 := fun h => hne (by rw [← hvalue, h]; rfl)
  have hrow := requestOf_configureRow b1 (bigEndian b2 b3) b4 (bigEndian b5 b6)
  obtain ⟨x, hx⟩ := Option.isSome_iff_exists.1 (chan_isSome_of_resolve hshaped hres)
  refine ⟨_, if bigEndian b5 b6 = 0#16 then .start d c else .runPulses d c (bigEndian b5 b6), bigEndian b2 b3,
    (present_configure hadmitted).trans (exec_configure_found hrow hres), hvalue, ?calls, ?freq, ?duty⟩
  case calls => simp [apply_trace, hfreq, resolution]
  case freq => simp [apply_dev, hfreq, device_lt_of_resolve hshaped hres]
  case duty =>
    simp only [endCommand_chan, replyWith_chan, latchRequest_chan, chan_apply, hx, if_neg hfreq, and_self, ↓reduceIte]
    split_ifs <;> rfl

/-! ### Superseding (R93) -/

/-- How many free values `apply` draws depends on the frequency and on how many channels the device has. -/
theorem apply_draws (s : State) (d c : Nat) (f : Half) (du : Byte) (n : Half) :
    (s.apply d c f du n).draws =
      if f = 0#16 then s.draws else s.draws + drawsTaken s.params (s.ch[d]?.getD []).length := by
  unfold State.apply
  split_ifs <;> rfl

/-- Another record in a channel's place leaves the number of channels, so the number of draws, as it is. -/
theorem apply_draws_updateChan (s : State) (d c : Nat) (g : Channel → Channel) (f : Half) (du : Byte) (n : Half) :
    ((s.updateChan d c g).apply d c f du n).draws = (s.apply d c f du n).draws := by
  rw [apply_draws, apply_draws, updateChan_ch, List.getElem?_modify_eq]
  cases s.ch[d]? <;> simp

/-- The states that differ in the channel records only, field by field. -/
theorem eq_withRecords_iff {s t : State} :
    t = { s with ch := t.ch } ↔ t.params = s.params ∧ t.dev = s.dev ∧ t.req = s.req ∧ t.reply = s.reply ∧
      t.replyValid = s.replyValid ∧ t.trace = s.trace ∧ t.faultSet = s.faultSet ∧ t.refused = s.refused ∧ t.k = s.k ∧
      t.history = s.history ∧ t.draws = s.draws ∧ t.schedule = s.schedule := by
  cases s
  cases t
  simp

/-- Settles O25: of the record in the channel's place `apply` keeps at most the duty (`chan_apply`), and no other field it
writes depends on the records but the draws, which depend on how many there are. -/
theorem configureSupersedesSilently : Obligations.ConfigureSupersedesSilently := by
  intro i r s d c x hshaped hreq hres
  obtain ⟨y, hy⟩ := Option.isSome_iff_exists.1 (chan_isSome_of_resolve hshaped hres)
  have hx : (s.updateChan d c fun _ => x).chan d c = some x := by rw [chan_updateChan_same, hy]; rfl
  refine ⟨_, _, exec_configure_found hreq hres, exec_configure_found hreq hres, ?fields, ?run, ?record, ?count,
    fun d' c' hother => ?others, ?reply⟩
  case fields =>
    rw [eq_withRecords_iff]
    simp [apply_trace, apply_dev, apply_draws_updateChan]
  case reply => exact ⟨by simp, by simp⟩
  all_goals simp only [endCommand_chan, replyWith_chan, latchRequest_chan, chan_apply]
  case run =>
    simp only [hx, hy, and_self, ↓reduceIte]
    split_ifs <;> rfl
  case record =>
    intro hfreq
    simp [hx, hy, hfreq]
  case count =>
    intro hfreq hcount
    simp [hx, hfreq, hcount]
  case others => simp [hother, chan_updateChan_other _ _ hother]

end Sys2Proof.Machine

/-! The commands of 43_dispatcher.md: the reply each writes, what a failing one leaves, what a CONFIGURE on a resolved pin
leaves, and the rules' examples on REG_EX. -/

namespace Sys2Proof

theorem decode_configureFrame_append (pin : Byte) (freq : Half) (duty : Byte) (count : Half) (rest : List Byte) :
    decode (configureFrame pin freq duty count ++ rest) = .ok (configureRow pin freq duty count) := by
  simp [configureFrame, decode_seven, bigEndian_bytes]

end Sys2Proof

namespace Sys2Proof.Machine

/-- A state whose reply region is that of a reply write holds that reply, and every other byte as before it (R109). -/
theorem holdsReply_of_reply_eq {s t : State} {o : Status} (hparams : t.params = s.params)
    (hreply : t.reply = (s.replyWith o).reply) :
    t.HoldsReply (encodeReply s.params o).2 ∧ s.KeepsOtherBytes t := by
  have hread := read_replyWith s o
  rw [← hreply] at hread
  refine ⟨⟨?moduleByte, ?statusByte⟩, fun a h0 h1 => ?others⟩
  case moduleByte => rw [hread, hparams, encodeReply_fst, if_pos rfl]
  case statusByte => rw [hread, if_neg one_ne_zero, if_pos rfl]
  case others => rw [hread, if_neg h0, if_neg h1]

/-! ### Commands that fail (R107, R110) -/

/-- Every cause but UnknownOpcode is recorded and answered with a Fail reply. -/
theorem raise_eq_replyWith_fail (s : State) {cause : Cause} (hcause : ∀ op, cause ≠ .unknownOpcode op) :
    s.raise cause = State.replyWith .fail { s with history := s.history ++ [⟨s.k, cause⟩] } := by
  cases cause with
  | malformedCommand len => rfl
  | unknownOpcode op => exact absurd rfl (hcause op)
  | pinNotAvailable pin => rfl

/-- The end of a command that raised such a cause: the Fail reply, the end of the command, nothing else. -/
theorem raise_endCommand_repliesFail (s : State) {cause : Cause} (hcause : ∀ op, cause ≠ .unknownOpcode op) :
    let t := (s.raise cause).endCommand
    t.HoldsReply s.params.statusFail ∧ s.KeepsOtherBytes t ∧
      t = { s with reply := t.reply, replyValid := true, req := Latch.empty, k := s.k + 1, history := t.history } := by
  rw [raise_eq_replyWith_fail s hcause]
  exact and_assoc.1 ⟨holdsReply_of_reply_eq (o := .fail) rfl rfl, rfl⟩

/-- A CONFIGURE row on an unresolved pin: the latch it wrote is unwritten again at its end, so only the cause is left. -/
theorem exec_configure_notFound {i : Instr} {r : Request} {s : State} (hreq : requestOf i = some r)
    (hres : resolve s.params r.pin = none) : exec i s = .next (s.raise (.pinNotAvailable r.pin)).endCommand := by
  rw [exec_configure hreq, configure_notFound hres]
  rfl

theorem failsUnresolved_of_requestOf {i : Instr} {r : Request} (hreq : requestOf i = some r) :
    FailsUnresolved i r.pin :=
  fun s hres => ⟨_, exec_configure_notFound hreq hres, raise_endCommand_repliesFail s (by simp)⟩

/-! ### CONFIGURE on a resolved pin (R104 to R106) -/

/-- Every field after `apply`, the Ok reply and the end of the command that `apply` itself does not write. -/
theorem apply_replyOk_frame (s : State) (r : Request) (d c : Nat) :
    let u := s.apply d c r.freq r.duty r.count
    let t := ((u.latchRequest r).replyWith .ok).endCommand
    t = { s with ch := t.ch, dev := u.dev, draws := u.draws, trace := u.trace, reply := t.reply, replyValid := true,
                 req := Latch.empty, k := s.k + 1 } := by
  dsimp only
  unfold State.apply
  split_ifs <;> rfl

theorem apply_replyOk_reply (s : State) (r : Request) (d c : Nat) :
    let t := (((s.apply d c r.freq r.duty r.count).latchRequest r).replyWith .ok).endCommand
    t.HoldsReply s.params.statusOk ∧ s.KeepsOtherBytes t :=
  holdsReply_of_reply_eq (o := .ok) (by simp) (by simp)

theorem siblingAfterInit_siblingChannel (p : Params) (n i : Nat) (x : Channel) :
    SiblingAfterInit p x (siblingChannel p n i x) :=
  ⟨fun h => siblingChannel_preserve h n i x, siblingChannel_run p n i x, siblingChannel_duty p n i x⟩

/-- The siblings of a channel whose device `apply` initialises are as R94 allows. -/
theorem apply_siblingsAfterInit (s : State) (d c : Nat) {f : Half} (du : Byte) (n : Half) (hfreq : f ≠ 0#16) :
    s.SiblingsAfterInit (s.apply d c f du n) d c := by
  intro c' hc
  have hsibling : (s.apply d c f du n).chan d c' = (s.chan d c').map (siblingChannel s.params s.draws c') := by
    simp [chan_apply, hc, hfreq]
  refine ⟨fun x hx => ⟨_, ?_, siblingAfterInit_siblingChannel s.params s.draws c' x⟩, fun hnone => ?_⟩
  · rw [hsibling, hx, Option.map_some]
  · rw [hsibling, hnone, Option.map_none]

theorem apply_keepsOtherDevices (s : State) (d c : Nat) (f : Half) (du : Byte) (n : Half) :
    s.KeepsOtherDevices (s.apply d c f du n) d := by
  intro d' hd
  refine ⟨?_, fun c' => by simp [chan_apply, hd]⟩
  rw [apply_dev]
  split_ifs
  · rfl
  · exact List.getElem?_set_ne hd.symm

section
variable {i : Instr} {r : Request} {s : State} {d c : Nat}

/-- R104: what a CONFIGURE with frequency 0 leaves where its pin resolves. -/
theorem exec_configure_stop (hshaped : s.Shaped) (hreq : requestOf i = some r) (hfreq : r.freq = 0#16)
    (hres : resolve s.params r.pin = some (d, c)) :
    ∃ x t, s.chan d c = some x ∧ exec i s = .next t ∧
      t.chan d c = some { x with run := .idle } ∧
      (∀ d' c', ¬(d' = d ∧ c' = c) → t.chan d' c' = s.chan d' c') ∧
      t.HoldsReply s.params.statusOk ∧ s.KeepsOtherBytes t ∧
      t = { s with ch := t.ch, trace := s.trace ++ [.stop d c], reply := t.reply, replyValid := true,
                   req := Latch.empty, k := s.k + 1 } := by
  obtain ⟨x, hx⟩ := Option.isSome_iff_exists.1 (chan_isSome_of_resolve hshaped hres)
  obtain ⟨hholds, hkeeps⟩ := apply_replyOk_reply s r d c
  refine ⟨x, _, hx, exec_configure_found hreq hres, ?channel, fun d' c' hother => ?others, hholds, hkeeps, ?frame⟩
  case channel => simp [chan_apply, hx, hfreq]
  case others => simp [chan_apply, hother, hfreq]
  case frame =>
    refine (apply_replyOk_frame s r d c).trans ?_
    simp [apply_dev, apply_draws, apply_trace, hfreq]

/-- R105 and R106: what a CONFIGURE with a frequency leaves where its pin resolves; its count chooses the run and the last
call only. -/
theorem exec_configure_start (hshaped : s.Shaped) (hreq : requestOf i = some r) (hfreq : r.freq ≠ 0#16)
    (hres : resolve s.params r.pin = some (d, c)) :
    ∃ t, exec i s = .next t ∧
      t.chan d c = some ⟨if r.count = 0#16 then .runningContinuous else .runningFinite r.count, some r.duty⟩ ∧
      t.dev[d]? = some ⟨some s.params.pwmMode, some r.freq, some resolution⟩ ∧
      s.SiblingsAfterInit t d c ∧ s.KeepsOtherDevices t d ∧
      t.HoldsReply s.params.statusOk ∧ s.KeepsOtherBytes t ∧
      t = { s with ch := t.ch, dev := t.dev, draws := t.draws, reply := t.reply, replyValid := true,
                   req := Latch.empty, k := s.k + 1,
                   trace := s.trace ++ [.init d s.params.pwmMode r.freq resolution, .setDuty d c r.duty,
                     if r.count = 0#16 then .start d c else .runPulses d c r.count] } := by
  obtain ⟨x, hx⟩ := Option.isSome_iff_exists.1 (chan_isSome_of_resolve hshaped hres)
  obtain ⟨hholds, hkeeps⟩ := apply_replyOk_reply s r d c
  refine ⟨_, exec_configure_found hreq hres, ?channel, ?device,
    apply_siblingsAfterInit s d c r.duty r.count hfreq, apply_keepsOtherDevices s d c r.freq r.duty r.count,
    hholds, hkeeps, ?frame⟩
  case channel =>
    simp only [endCommand_chan, replyWith_chan, latchRequest_chan, chan_apply, hx, if_neg hfreq, and_self, ↓reduceIte]
    split_ifs <;> rfl
  case device => simp [apply_dev, hfreq, device_lt_of_resolve hshaped hres]
  case frame =>
    refine (apply_replyOk_frame s r d c).trans ?_
    rw [apply_trace, if_neg hfreq]
    rfl

end

/-! ### The rules' examples -/

/-- On REG_EX with the default PIN_KEY the resolver looks for the pin's own number. -/
theorem resolve_onExample {s : State} (hexample : OnExample s) (pin : Byte) :
    resolve s.params pin = findDevice pin.toNat 0 exampleRegistry := by
  obtain ⟨hregistry, hkeys, _⟩ := hexample
  rw [resolve, pinKey, hregistry, hkeys]
  rfl

/-! ### The obligations -/

/-- Settles O16: a frame without a frequency is PWM.STOP's, whose effect is `exec_configure_stop`. -/
theorem pwmStopStopsTheChannel : Obligations.PwmStopStopsTheChannel := by
  refine ⟨fun pin duty count rest => ?decodes, fun s pin duty count d c hshaped hres => ?resolved,
    fun pin duty count => failsUnresolved_of_requestOf (r := ⟨pin, 0#16, duty, count⟩) rfl, fun s hexample => ?onExample⟩
  case decodes =>
    rw [decode_configureFrame_append, configureRow_eq_pwmStop_iff.2 ⟨rfl, rfl, rfl, rfl⟩]
  case resolved => exact exec_configure_stop hshaped rfl rfl hres
  case onExample =>
    have hres : resolve s.params 3 = some (0, 1) := (resolve_onExample hexample 3).trans (by decide)
    obtain ⟨x, t, _, hexec, hchan, _, hreply, _, hframe⟩ :=
      exec_configure_stop (i := .pwmStop 3 50 5) hexample.2.2 rfl rfl hres
    exact ⟨_, t, rfl, hexec, by rw [hframe], by rw [hchan]; rfl, hreply⟩

/-- Settles O17: a frame with a frequency and count 0 is PWM.RUN's, whose effect is `exec_configure_start` at count 0. -/
theorem pwmRunStartsAContinuousRun : Obligations.PwmRunStartsAContinuousRun := by
  refine ⟨fun pin freq duty rest hfreq => ?decodes, fun s pin freq duty d c hshaped hfreq hres => ?resolved,
    fun pin freq duty => failsUnresolved_of_requestOf (r := ⟨pin, freq, duty, 0#16⟩) rfl, fun s hexample => ?onExample⟩
  case decodes =>
    rw [decode_configureFrame_append, configureRow_eq_pwmRun_iff.2 ⟨hfreq, rfl, rfl, rfl, rfl⟩]
  case resolved => exact exec_configure_start (r := ⟨pin, freq, duty, 0#16⟩) hshaped rfl hfreq hres
  case onExample =>
    have hres : resolve s.params 3 = some (0, 1) := (resolve_onExample hexample 3).trans (by decide)
    obtain ⟨t, hexec, _, _, _, _, hreply, _, hframe⟩ :=
      exec_configure_start (i := .pwmRun 3 100 50) hexample.2.2 rfl (by decide) hres
    exact ⟨_, t, rfl, hexec, by rw [hframe]; rfl, hreply⟩

/-- Settles O18: a frame with a frequency and a count is PWM.PULSE's, whose effect is `exec_configure_start` at that count. -/
theorem pwmPulseStartsAFiniteRun : Obligations.PwmPulseStartsAFiniteRun := by
  refine ⟨fun pin freq duty count rest hfreq hcount => ?decodes,
    fun s pin freq duty count d c hshaped hfreq hcount hres => ?resolved,
    fun pin freq duty count => failsUnresolved_of_requestOf (r := ⟨pin, freq, duty, count⟩) rfl,
    fun s hexample => ?onExample⟩
  case decodes =>
    rw [decode_configureFrame_append, configureRow_eq_pwmPulse_iff.2 ⟨hfreq, hcount, rfl, rfl, rfl, rfl⟩]
  case resolved =>
    have hstart := exec_configure_start (i := .pwmPulse pin freq duty count) hshaped rfl hfreq hres
    simpa only [if_neg hcount, resolution] using hstart
  case onExample =>
    have hres : resolve s.params 7 = some (1, 1) := (resolve_onExample hexample 7).trans (by decide)
    obtain ⟨t, hexec, hchan, _, _, _, hreply, _, hframe⟩ :=
      exec_configure_start (i := .pwmPulse 7 1000 25 3) hexample.2.2 rfl (by decide) hres
    exact ⟨_, t, rfl, hexec, by rw [hframe]; rfl, hchan, hreply⟩

/-- Settles O19: MALFORMED raises a cause for which a Fail reply is owed. -/
theorem malformedRepliesFail : Obligations.MalformedRepliesFail :=
  ⟨fun _ hshort => decode_short hshort, fun s _ => ⟨_, rfl, raise_endCommand_repliesFail s (by simp)⟩,
    decode_short (by decide)⟩

/-- Settles O20: the opcode byte alone selects the row, and raising UnknownOpcode writes REPLY_VALID and the history only. -/
theorem unknownOpcodeIsSilent : Obligations.UnknownOpcodeIsSilent :=
  ⟨fun _ _ hop hrest => decode_cons_of_ne_configure hop hrest, fun _ _ => ⟨_, rfl, rfl⟩⟩

/-- Settles O21: rows 3 to 5 alike raise PinNotAvailable, for which a Fail reply is owed. -/
theorem unresolvedPinRepliesFail : Obligations.UnresolvedPinRepliesFail := by
  refine ⟨fun i r hreq => failsUnresolved_of_requestOf hreq, fun s hexample => ?_⟩
  have hres : resolve s.params 9 = none := (resolve_onExample hexample 9).trans (by decide)
  obtain ⟨t, hexec, hreply, _, hframe⟩ := failsUnresolved_of_requestOf (i := .pwmRun 9 100 50) rfl s hres
  exact ⟨_, t, rfl, hexec, by rw [hframe], hreply⟩

end Sys2Proof.Machine

/-! The three errors of 60_exceptions.md (R115 to R118): every presented frame decodes, every command ends, and the row of the
frame alone says which error is handled. -/

namespace Sys2Proof

/-- The codec's checks leave no read past the frame's end (20_memory.md R44). -/
theorem exists_decode_eq_ok (cmd : List Byte) : ∃ i, decode cmd = .ok i := by
  obtain hshort | hlong := Nat.lt_or_ge cmd.length 7
  case inl => exact ⟨_, decode_short hshort⟩
  case inr =>
    obtain ⟨b0, b1, b2, b3, b4, b5, b6, rest, rfl⟩ := frame_seven hlong
    rw [decode_seven]
    split_ifs <;> exact ⟨_, rfl⟩

section
variable {cmd : List Byte}

/-- R115: MALFORMED is raised by every frame shorter than seven bytes and by no other. -/
theorem exists_decode_eq_malformed_iff : (∃ n, decode cmd = .ok (.malformed n)) ↔ cmd.length < 7 := by
  simp [decode_eq_malformed_iff]

/-- R116: UNKNOWN is raised by every longer frame with another opcode byte and by no other. -/
theorem exists_decode_eq_unknown_iff :
    (∃ op, decode cmd = .ok (.unknown op)) ↔ 7 ≤ cmd.length ∧ cmd[0]? ≠ some configureOpcode := by
  simp only [decode_eq_unknown_iff, exists_and_left]
  refine and_congr_right fun hlong => ?_
  have hfirst : cmd[0]? = some cmd[0] := List.getElem?_eq_getElem (by omega)
  simp [hfirst]

end

end Sys2Proof

namespace Sys2Proof.Machine

/-- Every row ends as a command, with a next state, from every state (43_dispatcher.md R112). -/
theorem exists_exec_eq_next (i : Instr) (s : State) : ∃ t, exec i s = .next t := by
  cases i <;> exact ⟨_, rfl⟩

/-- What an admitted frame leaves is what the instruction it decodes to leaves. -/
theorem present_next_eq {s t u : State} {frame : List Byte} {room : Nat} {i : Instr}
    (hadmitted : admitted s.params frame.length room = true) (hpresent : present frame room s = .next t)
    (hdecode : decode frame = .ok i) (hexec : exec i s = .next u) : u = t := by
  rw [present_admitted hadmitted hdecode, hexec] at hpresent
  exact Host.Outcome.next.inj hpresent

/-- Settles O28: the row of the frame decides the error (`exists_decode_eq_malformed_iff`, `exists_decode_eq_unknown_iff`), and
for a CONFIGURE row the resolver does; each clause is what the command of that row leaves. -/
theorem errorsAreHandled : Obligations.ErrorsAreHandled := by
  intro s frame room hadmitted
  obtain ⟨i, hdecode⟩ := exists_decode_eq_ok frame
  obtain ⟨t, hexec⟩ := exists_exec_eq_next i s
  have hpresent : present frame room s = .next t := (present_admitted hadmitted hdecode).trans hexec
  refine ⟨exists_decode_eq_malformed_iff, exists_decode_eq_unknown_iff, t, hpresent, fun hshort => ?malformed,
    fun hlong hop => ?unknown, fun j r hj hreq hres => ?notFound, fun j r hj hreq hres => ?found⟩
  case malformed =>
    obtain rfl := present_next_eq hadmitted hpresent (decode_short hshort) rfl
    exact raise_endCommand_repliesFail s (by simp)
  case unknown =>
    obtain ⟨op, hunknown⟩ := exists_decode_eq_unknown_iff.2 ⟨hlong, hop⟩
    obtain rfl := present_next_eq hadmitted hpresent hunknown rfl
    rfl
  case notFound =>
    obtain rfl := present_next_eq hadmitted hpresent hj (exec_configure_notFound hreq hres)
    exact raise_endCommand_repliesFail s (by simp)
  case found =>
    obtain ⟨⟨d, c⟩, hfound⟩ := Option.ne_none_iff_exists'.1 hres
    obtain rfl := present_next_eq hadmitted hpresent hj (exec_configure_found hreq hfound)
    exact ⟨(apply_replyOk_reply s r d c).1, by simp, by simp⟩

/-- Settles O31: both causes are answered with the Fail reply of the parameters, and every command runs from every state. -/
theorem failuresAreUniformAndNotFatal : Obligations.FailuresAreUniformAndNotFatal := by
  intro s s' len i r hparams hreq hres
  obtain ⟨hmalformed, _⟩ := raise_endCommand_repliesFail s (cause := .malformedCommand len) (by simp)
  obtain ⟨hnotFound, _⟩ := raise_endCommand_repliesFail s' (cause := .pinNotAvailable r.pin) (by simp)
  exact ⟨_, _, rfl, exec_configure_notFound hreq hres, hmalformed, hparams ▸ hnotFound,
    fun j => ⟨exists_exec_eq_next j _, exists_exec_eq_next j _⟩⟩

end Sys2Proof.Machine

/-! The parameters, the Channel Registry among them, are fixed for a run (70_reset_and_hazards.md R131, R133). -/

namespace Sys2Proof.Machine

/-- No command changes a parameter: each of its four courses is a chain of operations that keep them. -/
theorem exec_params {i : Instr} {s t : State} (hexec : exec i s = .next t) : t.params = s.params := by
  obtain ⟨_, _, rfl⟩ | ⟨_, _, rfl⟩ | ⟨_, _, _, rfl⟩ | ⟨_, _, _, _, _, rfl⟩ := exec_cases hexec
  case inl => rw [endCommand_params, raise_params]
  case inr.inl => rw [endCommand_params, raise_params]
  case inr.inr.inl => rw [endCommand_params, raise_params, latchRequest_params]
  case inr.inr.inr => rw [endCommand_params, replyWith_params, apply_params, latchRequest_params]

/-- No move changes a parameter. -/
theorem step_params {s t : State} (hstep : step s = .next t) : t.params = s.params := by
  obtain ⟨_, _, _, _, _, rfl⟩ | ⟨_, _, _, _, _, _, _, hexec⟩ | ⟨_, _, _, _, _, _, _, rfl⟩ |
    ⟨_, _, _, rfl | ⟨_, rfl⟩⟩ := step_cases hstep
  · rfl
  · exact (exec_params hexec).trans rfl
  · exact setRun_params ..
  · rfl
  · exact markFault_params ..

/-- Settles O42: launch takes the parameters as they are given, and `step_params` is its second half. -/
theorem registryIsNeverMutated : Obligations.RegistryIsNeverMutated :=
  ⟨fun _ => rfl, fun _ _ => step_params⟩

end Sys2Proof.Machine

/-! The codec as a whole (20_memory.md R44, 30_encoding.md R58, R65 to R67): every frame decodes to a well-formed instruction, decode
undoes encode, and what an assembled line decodes to. -/

namespace Sys2Proof

/-! ### Reads and well-formedness -/

theorem memRead8_eq_error_iff {cmd : List Byte} {a : Nat} :
    memRead8 cmd a = .error (.cmdReadOutOfRange a 1) ↔ cmd.length < a + 1 := by
  rw [Nat.lt_succ_iff, ← List.getElem?_eq_none_iff, memRead8]
  cases cmd[a]? <;> simp

/-- The second byte is past the frame's end whenever the first one is. -/
theorem memRead16_eq_error_iff {cmd : List Byte} {a : Nat} :
    memRead16 cmd a = .error (.cmdReadOutOfRange a 2) ↔ cmd.length < a + 2 := by
  obtain hout | hin := Nat.lt_or_ge cmd.length (a + 2)
  case inl =>
    have hlow : cmd[a + 1]? = none := List.getElem?_eq_none (by omega)
    cases hhigh : cmd[a]? <;> simp [memRead16, hhigh, hlow, hout]
  case inr =>
    have hhigh : cmd[a]? = some cmd[a] := List.getElem?_eq_getElem (by omega)
    have hlow : cmd[a + 1]? = some cmd[a + 1] := List.getElem?_eq_getElem (by omega)
    simp [memRead16_of_getElem? hhigh hlow, hin]

/-- The fields of a CONFIGURE frame meet the conditions of the row they select (30_encoding.md R59). -/
theorem wf_configureRow (pin : Byte) (freq : Half) (duty : Byte) (count : Half) :
    (configureRow pin freq duty count).wf = true := by
  unfold configureRow
  split_ifs with hfreq hcount
  · rfl
  · simp [Instr.wf, hfreq]
  · simp [Instr.wf, hfreq, hcount]

theorem wf_of_decode {cmd : List Byte} {i : Instr} (hdecode : decode cmd = .ok i) : i.wf = true := by
  obtain hshort | hlong := Nat.lt_or_ge cmd.length 7
  case inl =>
    rw [decode_short hshort] at hdecode
    cases hdecode
    simpa [Instr.wf] using hshort
  case inr =>
    obtain ⟨b0, b1, b2, b3, b4, b5, b6, rest, rfl⟩ := frame_seven hlong
    rw [decode_seven] at hdecode
    split at hdecode
    case isTrue hop =>
      cases hdecode
      exact decide_eq_true hop
    case isFalse =>
      cases hdecode
      exact wf_configureRow ..

theorem exists_decode_eq_ok_wf (cmd : List Byte) : ∃ i, decode cmd = .ok i ∧ i.wf = true := by
  obtain ⟨i, hdecode⟩ := exists_decode_eq_ok cmd
  exact ⟨i, hdecode, wf_of_decode hdecode⟩

/-- Settles O3: the reads fault past the frame's end, and decode gets by without such a read. -/
theorem noReadLeavesTheFrame : Obligations.NoReadLeavesTheFrame :=
  ⟨fun _ _ => memRead8_eq_error_iff, fun _ _ => memRead16_eq_error_iff, exists_decode_eq_ok_wf⟩

/-- Settles O8: `decode_seven` names the first seven bytes only. -/
theorem trailingBytesAreIgnored : Obligations.TrailingBytesAreIgnored := by
  intro cmd rest hlong
  obtain ⟨b0, b1, b2, b3, b4, b5, b6, more, rfl⟩ := frame_seven hlong
  exact (decode_seven ..).trans (decode_seven ..).symm

/-! ### Encode and assemble -/

theorem decode_configureFrame (pin : Byte) (freq : Half) (duty : Byte) (count : Half) :
    decode (configureFrame pin freq duty count) = .ok (configureRow pin freq duty count) := by
  simpa using decode_configureFrame_append pin freq duty count []

/-- Settles O9, a row at a time: the well-formedness of the instruction is the condition under which the codec selects its row. -/
theorem decodeUndoesEncode : Obligations.DecodeUndoesEncode := by
  intro i hwf
  cases i with
  | malformed len =>
    have hshort : len < 7 := of_decide_eq_true hwf
    simp [encode, decode_eq_malformed_iff, hshort]
  | unknown opcode =>
    have hop : opcode ≠ configureOpcode := of_decide_eq_true hwf
    exact decode_cons_of_ne_configure hop (Nat.le_refl 6)
  | pwmStop pin duty count =>
    rw [encode, decode_configureFrame, configureRow_eq_pwmStop_iff.2 ⟨rfl, rfl, rfl, rfl⟩]
  | pwmRun pin freq duty =>
    have hfreq : freq ≠ 0#16 := of_decide_eq_true hwf
    rw [encode, decode_configureFrame, configureRow_eq_pwmRun_iff.2 ⟨hfreq, rfl, rfl, rfl, rfl⟩]
  | pwmPulse pin freq duty count =>
    obtain ⟨hfreq, hcount⟩ : freq ≠ 0#16 ∧ count ≠ 0#16 := by simpa [Instr.wf] using hwf
    rw [encode, decode_configureFrame, configureRow_eq_pwmPulse_iff.2 ⟨hfreq, hcount, rfl, rfl, rfl, rfl⟩]

theorem ofNat16_eq_zero_iff {n : Nat} (hrange : n < 65536) : BitVec.ofNat 16 n = 0#16 ↔ n = 0 := by
  rw [← BitVec.toNat_inj]
  simp [Nat.mod_eq_of_lt hrange]

/-- The row of a CONFIGURE line by its operands as written (30_encoding.md R66). -/
theorem configureRow_ofNat {freq count : Nat} (pin duty : Byte) (hfreq : freq < 65536) (hcount : count < 65536) :
    configureRow pin (BitVec.ofNat 16 freq) duty (BitVec.ofNat 16 count) =
      if freq = 0 then .pwmStop pin duty (BitVec.ofNat 16 count)
      else if count = 0 then .pwmRun pin (BitVec.ofNat 16 freq) duty
      else .pwmPulse pin (BitVec.ofNat 16 freq) duty (BitVec.ofNat 16 count) := by
  simp only [configureRow, ofNat16_eq_zero_iff hfreq, ofNat16_eq_zero_iff hcount]

theorem assemble_frame_toNat (bytes : List Byte) : assemble (.frame (bytes.map BitVec.toNat)) = some bytes := by
  have hrange : ∀ b ∈ bytes, b.toNat < 256 := fun b _ => b.isLt
  simpa [assemble, Function.comp_def] using hrange

theorem assemble_frame_eq_none {bytes : List Nat} {b : Nat} (hmem : b ∈ bytes) (hlarge : 256 ≤ b) :
    assemble (.frame bytes) = none := by
  have hsome : ∃ b ∈ bytes, 256 ≤ b := ⟨b, hmem, hlarge⟩
  simpa [assemble] using hsome

/-- Settles O10: a CONFIGURE line in range is `configureFrame` of its operands, and the other lines reduce to it or are bytes. -/
theorem assembledLinesDecodeToTheirRow : Obligations.AssembledLinesDecodeToTheirRow := by
  refine ⟨fun pin freq duty count hpin hfreq hduty hcount => ?inRange, fun pin freq duty count hrange => if_neg hrange,
    fun _ => rfl, fun _ _ _ => rfl, fun _ _ _ _ => rfl,
    fun bytes => ⟨assemble_frame_toNat bytes, exists_decode_eq_ok_wf bytes⟩, fun _ _ => assemble_frame_eq_none⟩
  case inRange => exact ⟨_, if_pos ⟨hpin, hfreq, hduty, hcount⟩, rfl,
    (decode_configureFrame ..).trans (congrArg _ (configureRow_ofNat _ _ hfreq hcount))⟩

/-- Settles O1: each word is laid out in full, so the codec computes its row. -/
theorem specWordsDecodeToTheirRows : Obligations.SpecWordsDecodeToTheirRows :=
  ⟨rfl, rfl, rfl, rfl, rfl, rfl⟩

end Sys2Proof

/-! The records a resolved pin has, the reply write and the effect of an init on siblings, each as one operation. -/

namespace Sys2Proof.Machine

/-- Settles O13: in a shaped state the records follow the registry, where the resolver found the pair. -/
theorem resolvedPinHasItsRecords : Obligations.ResolvedPinHasItsRecords := by
  intro s pin d c hshaped hres
  exact ⟨Option.isSome_iff_exists.1 (chan_isSome_of_resolve hshaped hres), _,
    List.getElem?_eq_getElem (device_lt_of_resolve hshaped hres)⟩

/-- Settles O15: `read_replyWith` at every offset, and two writes that each keep the canonical form. -/
theorem replyWriteSetsBothBytes : Obligations.ReplyWriteSetsBothBytes := by
  intro s o
  refine ⟨by simp, by simp, ?others, rfl, fun hwf => ?canonical⟩
  case others => exact (holdsReply_of_reply_eq (o := o) (replyWith_params s o) rfl).2
  case canonical => exact Memory.wf_write _ 1 _ (Memory.wf_write _ 0 _ hwf)

theorem siblingEffect_preserve {s : State} (hpreserve : s.params.siblingInit = .preserve) (d c : Nat) :
    s.siblingEffect d c = s := by
  have hrow : (fun row : List Channel =>
      row.mapIdx fun i x => if i = c then x else siblingChannel s.params s.draws i x) = id := by
    funext row
    simp [siblingChannel_preserve hpreserve, List.mapIdx_eq_iff]
  rw [State.siblingEffect, hrow, List.modify_id, drawsTaken, hpreserve]
  rfl

/-- Settles O27: `chan_siblingEffect` gives every record after the effect. -/
theorem siblingEffectTouchesOnlySiblings : Obligations.SiblingEffectTouchesOnlySiblings := by
  intro s d c
  refine ⟨fun c' hc => ?siblings, ?channel, fun d' hd => ⟨rfl, fun c' => ?others⟩, rfl,
    fun hpreserve => siblingEffect_preserve hpreserve d c⟩
  case siblings =>
    rw [chan_siblingEffect, if_pos ⟨rfl, hc⟩]
    exact ⟨fun x hx => ⟨_, by rw [hx, Option.map_some], siblingAfterInit_siblingChannel ..⟩,
      fun hnone => by rw [hnone, Option.map_none]⟩
  case channel => simp [chan_siblingEffect]
  case others => simp [chan_siblingEffect, hd]

end Sys2Proof.Machine

/-! What a command carries over, touches and records (43_dispatcher.md R111, R112; 60_exceptions.md R114, R119). -/

namespace Sys2Proof.Machine

/-! ### Which cause a command raises -/

/-- The cause the command raises (60_exceptions.md R115 to R117), `none` for a CONFIGURE whose pin resolves. -/
def causeOf (p : Params) : Instr → Option Cause
  | .malformed len => some (.malformedCommand len)
  | .unknown opcode => some (.unknownOpcode opcode)
  | .pwmStop pin _ _ | .pwmRun pin _ _ | .pwmPulse pin _ _ _ =>
    if resolve p pin = none then some (.pinNotAvailable pin) else none

section
variable {p : Params} {i : Instr} {r : Request} {s t : State}

theorem causeOf_configure (hreq : requestOf i = some r) :
    causeOf p i = if resolve p r.pin = none then some (.pinNotAvailable r.pin) else none := by
  cases i <;> cases hreq <;> rfl

theorem causeOf_eq_malformed_iff {n : Nat} : causeOf p i = some (.malformedCommand n) ↔ i = .malformed n := by
  cases i <;> simp [causeOf]

theorem causeOf_eq_unknown_iff {op : Byte} : causeOf p i = some (.unknownOpcode op) ↔ i = .unknown op := by
  cases i <;> simp [causeOf]

theorem causeOf_eq_pin_iff {pin : Byte} : causeOf p i = some (.pinNotAvailable pin) ↔
    ∃ r, requestOf i = some r ∧ resolve p r.pin = none ∧ r.pin = pin := by
  cases i <;> simp [causeOf, requestOf]

theorem causeOf_eq_none_iff : causeOf p i = none ↔ ∃ r, requestOf i = some r ∧ resolve p r.pin ≠ none := by
  cases i <;> simp [causeOf, requestOf]

/-- A command that raises a cause leaves records, calls and draws as they were; the history gains that cause. -/
theorem exec_of_causeOf_eq_some {cause : Cause} (hexec : exec i s = .next t) (hcause : causeOf s.params i = some cause) :
    t = (s.raise cause).endCommand := by
  obtain ⟨_, rfl, rfl⟩ | ⟨_, rfl, rfl⟩ | ⟨r, hreq, hres, rfl⟩ | ⟨r, d, c, hreq, hres, rfl⟩ := exec_cases hexec
  case inl => cases hcause; rfl
  case inr.inl => cases hcause; rfl
  case inr.inr.inl =>
    rw [causeOf_configure hreq, if_pos hres] at hcause
    cases hcause; rfl
  case inr.inr.inr =>
    rw [causeOf_configure hreq, if_neg (by simp [hres])] at hcause
    cases hcause

/-- A command that raises no cause is a CONFIGURE on a resolved pin. -/
theorem exec_of_causeOf_eq_none (hexec : exec i s = .next t) (hcause : causeOf s.params i = none) :
    ∃ r d c, requestOf i = some r ∧ resolve s.params r.pin = some (d, c) ∧
      t = (((s.apply d c r.freq r.duty r.count).latchRequest r).replyWith .ok).endCommand := by
  obtain ⟨r, hreq, hres⟩ := causeOf_eq_none_iff.1 hcause
  obtain ⟨⟨d, c⟩, hres⟩ := Option.ne_none_iff_exists'.1 hres
  rw [exec_configure_found hreq hres] at hexec
  exact ⟨r, d, c, hreq, hres, (Host.Outcome.next.inj hexec).symm⟩

theorem exec_history (hexec : exec i s = .next t) :
    t.history = s.history ++ ((causeOf s.params i).map (ErrorEvent.mk s.k)).toList := by
  cases hcause : causeOf s.params i with
  | none =>
    obtain ⟨r, d, c, _, _, rfl⟩ := exec_of_causeOf_eq_none hexec hcause
    simp
  | some cause => simp [exec_of_causeOf_eq_some hexec hcause]

theorem history_eq_append_iff (hexec : exec i s = .next t) {cause : Cause} :
    t.history = s.history ++ [⟨s.k, cause⟩] ↔ causeOf s.params i = some cause := by
  rw [exec_history hexec, List.append_cancel_left_eq]
  cases causeOf s.params i <;> simp

theorem history_eq_iff (hexec : exec i s = .next t) : t.history = s.history ↔ causeOf s.params i = none := by
  rw [exec_history hexec]
  cases causeOf s.params i <;> simp

end

/-- Settles O23: such a command raises a cause, and `raise` writes no record, no call and no draw. -/
theorem failedCommandTouchesNoChannel : Obligations.FailedCommandTouchesNoChannel := by
  intro i s t hexec hfails
  cases hcause : causeOf s.params i with
  | none =>
    obtain ⟨r, d, c, hreq, hres, _⟩ := exec_of_causeOf_eq_none hexec hcause
    exact absurd hres (hfails r d c hreq)
  | some cause => simp [exec_of_causeOf_eq_some hexec hcause]

/-- Settles O29: the history gains the cause of the decoded instruction (`exec_history`), and its row and the resolver decide
which that is. -/
theorem causesAreRecorded : Obligations.CausesAreRecorded := by
  intro s frame room hadmitted
  obtain ⟨i, hdecode⟩ := exists_decode_eq_ok frame
  obtain ⟨t, hexec⟩ := exists_exec_eq_next i s
  have hrow : ∀ j, i = j ↔ decode frame = .ok j := fun j => by rw [hdecode, Except.ok.injEq]
  refine ⟨t, (present_admitted hadmitted hdecode).trans hexec, fun n => ?malformed, fun op => ?unknown,
    fun pin => ?notFound, ?found⟩
  case malformed =>
    rw [history_eq_append_iff hexec, causeOf_eq_malformed_iff, hrow, decode_eq_malformed_iff, eq_comm (a := n)]
  case unknown =>
    rw [history_eq_append_iff hexec, causeOf_eq_unknown_iff, hrow, decode_eq_unknown_iff]
    rfl
  case notFound => simp [history_eq_append_iff hexec, causeOf_eq_pin_iff, hdecode]
  case found => simp [history_eq_iff hexec, causeOf_eq_none_iff, hdecode]

/-- Settles O30: the history gains the command's one cause, if it has one, and then only `raise` ran. -/
theorem atMostOneCauseACommand : Obligations.AtMostOneCauseACommand := by
  intro i s t hexec
  cases hcause : causeOf s.params i with
  | none => exact .inl ((history_eq_iff hexec).2 hcause)
  | some cause =>
    refine .inr ⟨cause, (history_eq_append_iff hexec).2 hcause, ?_, ?_⟩
    all_goals simp [exec_of_causeOf_eq_some hexec hcause]

/-! ### What a command depends on -/

/-- `apply` neither reads nor writes the latch, the index, the history and the marks. -/
theorem apply_withBookkeeping (s : State) (d c : Nat) (f : Half) (du : Byte) (n : Half) (req : Latch) (k : Nat)
    (history : List ErrorEvent) (faultSet : List FaultReason) (refused : Bool) :
    State.apply d c f du n
        { s with req := req, k := k, history := history, faultSet := faultSet, refused := refused } =
      { s.apply d c f du n with req := req, k := k, history := history, faultSet := faultSet, refused := refused } := by
  unfold State.apply
  split_ifs <;> rfl

/-- Of the channel and device records `apply` carries nothing into the other fields but the number of draws. -/
theorem apply_withRecords (s : State) (d c : Nat) (f : Half) (du : Byte) (n : Half) (ch : List (List Channel))
    (dev : List Device) :
    let t := State.apply d c f du n { s with ch := ch, dev := dev }
    t = { s.apply d c f du n with ch := t.ch, dev := t.dev, draws := t.draws } := by
  unfold State.apply
  split_ifs <;> rfl

/-- Settles O22: a command that raises a cause is `raise` and `endCommand`, any other is `apply`, a reply and `endCommand`, and
none of these reads the latch, the index, the history or the marks. -/
theorem everyCommandEnds : Obligations.EveryCommandEnds := by
  intro i s
  obtain ⟨t, hexec⟩ := exists_exec_eq_next i s
  refine ⟨t, hexec, ?_⟩
  cases hcause : causeOf s.params i with
  | none =>
    obtain ⟨r, d, c, hreq, hres, rfl⟩ := exec_of_causeOf_eq_none hexec hcause
    refine ⟨rfl, by simp, fun req k history faultSet refused => ⟨_, exec_configure_found hreq hres, ?_⟩⟩
    rw [apply_withBookkeeping]
    rfl
  | some cause =>
    obtain rfl := exec_of_causeOf_eq_some hexec hcause
    refine ⟨rfl, by simp, fun req k history faultSet refused => ?_⟩
    obtain ⟨t', hexec'⟩ := exists_exec_eq_next i
      { s with req := req, k := k, history := history, faultSet := faultSet, refused := refused }
    obtain rfl := exec_of_causeOf_eq_some hexec' hcause
    exact ⟨_, hexec', by cases cause <;> rfl⟩

/-- Settles O48: whether a command raises a cause depends on its request and the parameters, and neither `raise` nor `apply` takes
over a record. -/
theorem noCommandReadsChannelState : Obligations.NoCommandReadsChannelState := by
  intro i s s' t t' hrecords hexec hexec'
  rw [hrecords] at hexec'
  cases hcause : causeOf s.params i with
  | none =>
    obtain ⟨r, d, c, hreq, hres, rfl⟩ := exec_of_causeOf_eq_none hexec hcause
    obtain rfl := Host.Outcome.next.inj (hexec'.symm.trans (exec_configure_found hreq hres))
    rw [apply_withRecords]
    rfl
  | some cause =>
    obtain rfl := exec_of_causeOf_eq_some hexec hcause
    obtain rfl := exec_of_causeOf_eq_some hexec' hcause
    cases cause <;> rfl

end Sys2Proof.Machine

/-! What a step at each kind of move is (43_dispatcher.md R103, R113; 00_scope.md R13; 10_state.md R17, R35), and what every step
does to the marks, the index and TRACE. -/

namespace Sys2Proof.Machine

/-! ### The move at the head of the schedule -/

section
variable {s : State} {rest : List Move}

theorem step_present {frame : List Byte} {room : Nat} (hschedule : s.schedule = .present frame room :: rest) :
    step s = present frame room { s with schedule := rest } := by
  rw [step, hschedule]
  rfl

theorem step_cycle {d c : Nat} (hschedule : s.schedule = .cycle d c :: rest) :
    step s = cycleEvent d c { s with schedule := rest } := by
  rw [step, hschedule]
  rfl

theorem step_observe {cell : Cell} (hschedule : s.schedule = .observe cell :: rest) :
    step s = observe cell { s with schedule := rest } := by
  rw [step, hschedule]
  rfl

theorem step_drain (hschedule : s.schedule = []) : step s = drain s := by
  rw [step, hschedule]

end

/-! ### Presentations -/

/-- A presentation outside the admitted set is refused, the index advanced unless it is too long. -/
theorem step_unadmitted {s : State} {frame : List Byte} {room : Nat} {rest : List Move}
    (hschedule : s.schedule = .present frame room :: rest)
    (hunadmitted : ¬ admitted s.params frame.length room = true) :
    step s = .next { s with schedule := rest, refused := true,
                            k := if s.params.maxCmdLen < frame.length then s.k else s.k + 1 } := by
  rw [step_present hschedule, present, if_neg hunadmitted, refusePresentation_eq]

/-- Settles O37: by `admitted_iff` each of the three defects keeps the presentation out of the admitted set. -/
theorem unadmittedPresentationIsRefused : Obligations.UnadmittedPresentationIsRefused := by
  intro s frame room rest hschedule
  refine ⟨fun hlong => ?tooLong, fun hlen hdefect => ?defect⟩
  case tooLong =>
    have hunadmitted : ¬ admitted s.params frame.length room = true := fun hadmitted =>
      hlong.not_ge ((admitted_iff ..).1 hadmitted).1
    rw [step_unadmitted hschedule hunadmitted, if_pos hlong]
  case defect =>
    have hunadmitted : ¬ admitted s.params frame.length room = true := fun hadmitted => by
      obtain ⟨_, hroom, hdefined⟩ := (admitted_iff ..).1 hadmitted
      obtain hsmall | ⟨row, hrow, hnone⟩ := hdefect
      · exact hsmall.not_ge hroom
      · exact hdefined row hrow hnone
    rw [step_unadmitted hschedule hunadmitted, if_neg hlen.not_gt]

theorem length_bytesOfNat (n w : Nat) : (bytesOfNat n w).length = n := by
  induction n with
  | zero => rfl
  | succ n ih => rw [bytesOfNat, List.length_cons, ih]

theorem decode_of_decodeTableWord {nbits w : Nat} {i : Instr} (hword : decodeTableWord nbits w = some i) :
    decode (frameOfTableWord nbits w) = .ok i := by
  obtain ⟨j, hdecode⟩ := exists_decode_eq_ok (frameOfTableWord nbits w)
  rw [decodeTableWord, hdecode] at hword
  rw [hdecode, Option.some.inj hword]

/-- Settles O36: the step presents the frame, and a table word is such a frame, of the length its bits need. -/
theorem stepRunsTheDecodedInstruction : Obligations.StepRunsTheDecodedInstruction := by
  have hruns : ∀ (s : State) (frame : List Byte) (room : Nat) (rest : List Move) (i : Instr),
      s.schedule = .present frame room :: rest → admitted s.params frame.length room = true → decode frame = .ok i →
      step s = exec i { s with schedule := rest } := fun s frame room rest i hschedule hadmitted hdecode =>
    (step_present hschedule).trans (present_admitted hadmitted hdecode)
  refine ⟨hruns, fun s nbits w i hadmitted hword => ?tableWord⟩
  case tableWord =>
    rw [← length_bytesOfNat ((nbits + 7) / 8) w] at hadmitted
    exact hruns (s.withFetchWord nbits w) _ _ s.schedule i rfl hadmitted (decode_of_decodeTableWord hword)

/-! ### Observations -/

/-- No cell is the schedule. -/
theorem readCell_withSchedule (s : State) (cell : Cell) (rest : List Move) :
    ({ s with schedule := rest } : State).readCell cell = s.readCell cell := by
  cases cell <;> rfl

section
variable {s : State} {cell : Cell}

theorem observe_value {v : CellValue} (hread : s.readCell cell = .value v) : observe cell s = .next s := by
  rw [observe, hread]

theorem observe_unwritten (hread : s.readCell cell = .unwritten) :
    observe cell s = .next (s.markFault (.unwrittenRead cell)) := by
  rw [observe, hread]

theorem observe_notObservable (hread : s.readCell cell = .notObservable) :
    observe cell s = .fault (.notObservable cell) := by
  rw [observe, hread]

end

theorem markFault_of_not_mem {s : State} {r : FaultReason} (hnew : r ∉ s.faultSet) :
    s.markFault r = { s with faultSet := s.faultSet ++ [r] } := by
  rw [State.markFault, if_neg hnew]

theorem markFault_of_mem {s : State} {r : FaultReason} (hthere : r ∈ s.faultSet) : s.markFault r = s := by
  rw [State.markFault, if_pos hthere]

/-- Settles O38: an observation does what the read of its cell says, and each read is the cell's own lookup. -/
theorem observationMarksOnlyUnwrittenReads : Obligations.ObservationMarksOnlyUnwrittenReads := by
  refine ⟨fun s cell rest hschedule => ?step, fun s a => ?reply, fun s d c => ?channel, fun s d => ?device,
    fun s => rfl⟩
  case step =>
    rw [step_observe hschedule]
    simp only [← readCell_withSchedule s cell rest]
    refine ⟨fun v hread => observe_value hread, fun hread hnew => ?_, fun hread hthere => ?_, observe_notObservable⟩
    · exact (observe_unwritten hread).trans (congrArg Host.Outcome.next (markFault_of_not_mem hnew))
    · exact (observe_unwritten hread).trans (congrArg Host.Outcome.next (markFault_of_mem hthere))
  case reply =>
    refine ⟨fun v ha hread => ?_, fun ha hread => ?_, fun ha => if_neg ha.not_gt⟩
    all_goals rw [State.readCell, if_pos (show a < replyLen from ha), hread, CellRead.ofCell]
  case channel =>
    refine ⟨fun x hx => ⟨?_, fun v hv => ?_, fun hv => ?_⟩, fun hnone => ⟨?_, ?_⟩⟩
    all_goals simp only [State.readCell, CellRead.ofRecord, CellRead.ofCell, *]
  case device =>
    refine ⟨fun x hx => ⟨fun v hv => ?_, fun hv => ?_, fun v hv => ?_, fun hv => ?_, fun v hv => ?_, fun hv => ?_⟩,
      fun hnone => ⟨?_, ?_, ?_⟩⟩
    all_goals simp only [State.readCell, CellRead.ofRecord, CellRead.ofCell, *]

/-! ### The marks, the index and TRACE over a step -/

section
variable {i : Instr} {s t : State}

/-- No command touches a mark, and each advances the index by one (10_state.md R17, R35). -/
theorem exec_marks_index (hexec : exec i s = .next t) : t.faultSet = s.faultSet ∧ t.refused = s.refused ∧ t.k = s.k + 1 := by
  obtain ⟨_, _, rfl⟩ | ⟨_, _, rfl⟩ | ⟨_, _, _, rfl⟩ | ⟨_, _, _, _, _, rfl⟩ := exec_cases hexec
  all_goals simp

/-- A command makes no call, or makes calls and answers Ok (43_dispatcher.md R111). -/
theorem exec_trace (hexec : exec i s = .next t) : ∃ calls, t.trace = s.trace ++ calls ∧
    (calls ≠ [] → t.replyValid = true ∧ t.HoldsReply s.params.statusOk) := by
  cases hcause : causeOf s.params i with
  | none =>
    obtain ⟨r, d, c, _, _, rfl⟩ := exec_of_causeOf_eq_none hexec hcause
    exact ⟨_, apply_trace .., fun _ => ⟨rfl, (apply_replyOk_reply s r d c).1⟩⟩
  | some cause =>
    obtain rfl := exec_of_causeOf_eq_some hexec hcause
    exact ⟨[], by simp, fun hne => absurd rfl hne⟩

end

theorem mem_markFault_of_mem {s : State} {r r' : FaultReason} (hmem : r ∈ s.faultSet) : r ∈ (s.markFault r').faultSet := by
  rw [markFault_faultSet]
  split_ifs <;> simp [hmem]

/-- Settles O43: a refusal sets REFUSED, an observation may add a reason, no other move touches a mark. -/
theorem marksAreNeverCleared : Obligations.MarksAreNeverCleared := by
  intro s t hstep
  obtain ⟨_, _, _, _, _, rfl⟩ | ⟨_, _, _, i, _, _, _, hexec⟩ | ⟨_, _, _, _, _, _, _, rfl⟩ |
    ⟨_, _, _, rfl | ⟨_, rfl⟩⟩ := step_cases hstep
  · exact ⟨fun _ => rfl, fun _ => id⟩
  · obtain ⟨hfault, hrefused, _⟩ := exec_marks_index hexec
    exact ⟨hrefused.trans, fun r hr => by rwa [hfault]⟩
  · exact ⟨id, fun _ => id⟩
  · exact ⟨id, fun _ => id⟩
  · exact ⟨id, fun r hr => mem_markFault_of_mem hr⟩

/-- Settles O44: only a command makes calls, and one that does answers Ok (`exec_trace`). -/
theorem traceGrowsOnlyWithOkReply : Obligations.TraceGrowsOnlyWithOkReply := by
  intro s t hstep
  have hsame (htrace : t.trace = s.trace) : ∃ calls, t.trace = s.trace ++ calls ∧
      (calls ≠ [] → (∃ frame room rest, s.schedule = .present frame room :: rest ∧
        admitted s.params frame.length room = true) ∧ t.replyValid = true ∧ t.HoldsReply s.params.statusOk) :=
    ⟨[], by rw [htrace, List.append_nil], fun hne => absurd rfl hne⟩
  obtain ⟨_, _, _, _, _, rfl⟩ | ⟨frame, room, rest, i, hschedule, hadmitted, _, hexec⟩ | ⟨_, _, _, _, _, _, _, rfl⟩ |
    ⟨_, _, _, rfl | ⟨_, rfl⟩⟩ := step_cases hstep
  · exact hsame rfl
  · obtain ⟨calls, htrace, hreply⟩ := exec_trace hexec
    exact ⟨calls, htrace, fun hne => ⟨⟨frame, room, rest, hschedule, hadmitted⟩, hreply hne⟩⟩
  · exact hsame rfl
  · exact hsame rfl
  · exact hsame rfl

/-- Settles O45: the refusal that is no count is that of a frame which is too long, and an admitted frame is none. -/
theorem indexCountsPresentations : Obligations.IndexCountsPresentations := by
  intro s t hstep
  obtain ⟨frame, _, _, hschedule, _, rfl⟩ | ⟨frame, _, _, i, hschedule, hadmitted, _, hexec⟩ |
    ⟨_, _, _, _, hschedule | ⟨hschedule, _⟩, _, _, rfl⟩ | ⟨_, _, hschedule, rfl | ⟨_, rfl⟩⟩ := step_cases hstep
  all_goals rw [hschedule]
  case inl => dsimp only; split_ifs <;> rfl
  case inr.inl =>
    have hlen : ¬ s.params.maxCmdLen < frame.length := ((admitted_iff ..).1 hadmitted).1.not_gt
    obtain ⟨_, _, hk⟩ := exec_marks_index hexec
    dsimp only
    rw [hk, if_neg hlen]
  all_goals rfl

end Sys2Proof.Machine

/-! Cycle events (42_pwm_controller.md R96 to R99): one event, the events of one run, and the runs that are left when nothing is
scheduled. -/

namespace Sys2Proof.Machine

section
variable {s : State} {d c : Nat} {x : Channel}

/-! ### One cycle event -/

theorem cycleEvent_enabled (hx : s.chan d c = some x) (henabled : x.run.enabled = true) :
    cycleEvent d c s = .next (s.setRun d c x.run.afterCycle) := by
  simp only [cycleEvent, hx, if_pos henabled]

theorem cycleEvent_not_enabled (hfinite : ∀ x n, s.chan d c = some x → x.run ≠ .runningFinite n) :
    cycleEvent d c s = .refused (.cycleNotEnabled d c) := by
  cases hx : s.chan d c with
  | none => simp only [cycleEvent, hx]
  | some x =>
    have hdisabled : ¬ x.run.enabled = true := fun henabled => by
      obtain ⟨n, hn, _⟩ := (enabled_iff _).1 henabled
      exact hfinite x n hx hn
    simp only [cycleEvent, hx, if_neg hdisabled]

theorem chan_setRun_same (hx : s.chan d c = some x) (r : RunState) :
    (s.setRun d c r).chan d c = some { x with run := r } := by
  rw [State.setRun, chan_updateChan_same, hx, Option.map_some]

theorem chan_setRun_other {d' c' : Nat} (hother : ¬(d' = d ∧ c' = c)) (r : RunState) :
    (s.setRun d c r).chan d' c' = s.chan d' c' :=
  chan_updateChan_other s _ hother

/-- What a cycle event leaves of its channel is what R96 and R97 say. -/
theorem cycleEffect_afterCycle (henabled : x.run.enabled = true) : cycleEffect x { x with run := x.run.afterCycle } := by
  obtain ⟨n, hn, hpos⟩ := (enabled_iff _).1 henabled
  by_cases hlast : n = 1#16
  case pos => exact .inr ⟨by rw [hn, hlast], by rw [hn, RunState.afterCycle, if_pos hlast]⟩
  case neg => exact .inl ⟨n, hn, by bv_omega, by rw [hn, RunState.afterCycle, if_neg hlast]⟩

/-- The step at a scheduled cycle event of a finite run. -/
theorem step_cycle_enabled {rest : List Move} (hschedule : s.schedule = .cycle d c :: rest) (hx : s.chan d c = some x)
    (henabled : x.run.enabled = true) :
    step s = .next (State.setRun d c x.run.afterCycle { s with schedule := rest }) :=
  (step_cycle hschedule).trans (cycleEvent_enabled hx henabled)

end

/-- Settles O33: of such a channel no cycle event is enabled. -/
theorem noCycleEventWithoutAFiniteRun : Obligations.NoCycleEventWithoutAFiniteRun := by
  intro s d c rest hschedule hfinite
  exact (step_cycle hschedule).trans (cycleEvent_not_enabled hfinite)

/-- Settles O32: the step is `setRun` of the channel to what `cycleEffect_afterCycle` says. -/
theorem cycleEventCountsDown : Obligations.CycleEventCountsDown := by
  intro s d c x n rest hschedule hx hrun hpos
  have henabled : x.run.enabled = true := (enabled_iff _).2 ⟨n, hrun, hpos⟩
  exact ⟨_, _, step_cycle_enabled hschedule hx henabled, chan_setRun_same hx _, cycleEffect_afterCycle henabled,
    fun _ _ hother => chan_setRun_other hother _, rfl⟩

/-! ### The events of one run -/

/-- The run state `j` cycle events after `RunningFinite(n)`. -/
def afterCycles (n : Half) (j : Nat) : RunState :=
  if j = n.toNat then .idle else .runningFinite (n - BitVec.ofNat 16 j)

theorem afterCycles_zero {n : Half} (hpos : n ≠ 0#16) : afterCycles n 0 = .runningFinite n := by
  have hne : 0 ≠ n.toNat := by bv_omega
  simp [afterCycles, hne]

theorem afterCycles_enabled {n : Half} {j : Nat} (hj : j < n.toNat) : (afterCycles n j).enabled = true := by
  have hne : n - BitVec.ofNat 16 j ≠ 0#16 := by bv_omega
  simp [afterCycles, hj.ne, RunState.enabled, hne]

theorem afterCycle_afterCycles {n : Half} {j : Nat} (hj : j < n.toNat) :
    (afterCycles n j).afterCycle = afterCycles n (j + 1) := by
  rw [afterCycles, if_neg hj.ne, RunState.afterCycle, afterCycles]
  by_cases hlast : j + 1 = n.toNat
  case pos => rw [if_pos hlast, if_pos (by bv_omega)]
  case neg =>
    rw [if_neg hlast, if_neg (by bv_omega)]
    congr 1
    bv_omega

/-- `j` cycle events of a run of `n ≥ j` cycles, taken off the schedule one by one. -/
theorem run_cycles {s : State} {d c : Nat} {n : Half} {du : Option Byte} {rest : List Move} (hpos : n ≠ 0#16)
    (hx : s.chan d c = some ⟨.runningFinite n, du⟩)
    (hschedule : s.schedule = List.replicate n.toNat (.cycle d c) ++ rest) {j : Nat} (hj : j ≤ n.toNat) :
    ∃ t : State, Host.Core.run Sys2Proof.core j s = .next t ∧ t.chan d c = some ⟨afterCycles n j, du⟩ ∧
      (∀ d' c', ¬(d' = d ∧ c' = c) → t.chan d' c' = s.chan d' c') ∧
      t = { s with ch := t.ch, schedule := List.replicate (n.toNat - j) (.cycle d c) ++ rest } := by
  induction j with
  | zero => exact ⟨s, run_zero s, by rw [hx, afterCycles_zero hpos], fun _ _ _ => rfl, by rw [Nat.sub_zero, ← hschedule]⟩
  | succ j ih =>
    obtain ⟨t, hrun, hchan, hothers, hframe⟩ := ih (by omega)
    have hnext : t.schedule = .cycle d c :: (List.replicate (n.toNat - (j + 1)) (.cycle d c) ++ rest) := by
      have hleft : n.toNat - j = n.toNat - (j + 1) + 1 := by omega
      rw [hframe, hleft, List.replicate_succ, List.cons_append]
    have hstep := step_cycle_enabled hnext hchan (afterCycles_enabled hj)
    refine ⟨_, (run_add hrun 1).trans (run_succ hstep 0), ?channel, fun d' c' hother => ?others, ?frame⟩
    case channel => rw [← afterCycle_afterCycles hj]; exact chan_setRun_same hchan _
    case others => exact (chan_setRun_other hother _).trans (hothers d' c' hother)
    case frame => rw [hframe]; rfl

/-- Settles O34: `run_cycles` before the last cycle event and at it. -/
theorem finiteRunEndsAfterItsCycles : Obligations.FiniteRunEndsAfterItsCycles := by
  intro s d c n du rest hpos hx hschedule
  refine ⟨fun j hj => ?before, ?last⟩
  case before =>
    obtain ⟨t, hrun, hchan, _, _⟩ := run_cycles hpos hx hschedule hj.le
    exact ⟨t, hrun, by rw [hchan, afterCycles, if_neg hj.ne]⟩
  case last =>
    obtain ⟨t, hrun, hchan, hothers, hframe⟩ := run_cycles hpos hx hschedule (Nat.le_refl _)
    refine ⟨t, hrun, by rw [hchan, afterCycles, if_pos rfl], hothers, ?_⟩
    rwa [Nat.sub_self, List.replicate_zero, List.nil_append] at hframe

/-! ### Draining -/

/-- How many cycle events a channel has before it. -/
def RunState.cyclesLeft : RunState → Nat
  | .runningFinite n => n.toNat
  | _ => 0

/-- How many cycle events all the channels have before them. -/
def State.cyclesLeft (s : State) : Nat := (s.ch.map fun row => (row.map fun x => x.run.cyclesLeft).sum).sum

theorem cyclesLeft_afterCycle {r : RunState} (henabled : r.enabled = true) : r.afterCycle.cyclesLeft < r.cyclesLeft := by
  obtain ⟨n, rfl, hpos⟩ := (enabled_iff r).1 henabled
  rw [RunState.afterCycle]
  split_ifs
  · simp only [RunState.cyclesLeft]; bv_omega
  · simp only [RunState.cyclesLeft]; bv_omega

/-- A sum over a list falls when one member's share falls. -/
theorem sum_map_modify_lt {α : Type} {f : α → Nat} {g : α → α} {l : List α} {i : Nat} {a : α} (ha : l[i]? = some a)
    (hlt : f (g a) < f a) : ((l.modify i g).map f).sum < (l.map f).sum := by
  induction l generalizing i with
  | nil => simp at ha
  | cons b rest ih =>
    cases i with
    | zero =>
      obtain rfl : b = a := by simpa using ha
      simpa using hlt
    | succ i => simpa using ih (by simpa using ha)

theorem cyclesLeft_setRun_afterCycle {s : State} {d c : Nat} {x : Channel} (hx : s.chan d c = some x)
    (henabled : x.run.enabled = true) : (s.setRun d c x.run.afterCycle).cyclesLeft < s.cyclesLeft := by
  rw [State.chan_eq, Option.bind_eq_some_iff] at hx
  obtain ⟨row, hrow, hx⟩ := hx
  exact sum_map_modify_lt hrow (sum_map_modify_lt hx (cyclesLeft_afterCycle henabled))

/-- Legal counts, said of the channel records one by one. -/
theorem countsLegal_iff {s : State} : s.CountsLegal ↔ ∀ d c x, s.chan d c = some x → x.run ≠ .runningFinite 0#16 := by
  simp only [State.chan_eq, Option.bind_eq_some_iff]
  constructor
  · rintro hlegal d c x ⟨row, hrow, hx⟩
    exact hlegal row (List.mem_of_getElem? hrow) x (List.mem_of_getElem? hx)
  · intro hlegal row hrow x hx
    obtain ⟨d, hd⟩ := List.mem_iff_getElem?.1 hrow
    obtain ⟨c, hc⟩ := List.mem_iff_getElem?.1 hx
    exact hlegal d c x ⟨row, hd, hc⟩

theorem afterCycle_ne_zero {r : RunState} (henabled : r.enabled = true) : r.afterCycle ≠ .runningFinite 0#16 := by
  obtain ⟨n, rfl, hpos⟩ := (enabled_iff r).1 henabled
  rw [RunState.afterCycle]
  split_ifs with hlast
  · simp
  · simp only [ne_eq, RunState.runningFinite.injEq]; bv_omega

theorem setRun_afterCycle_countsLegal {s : State} {d c : Nat} {x : Channel} (hlegal : s.CountsLegal)
    (hx : s.chan d c = some x) (henabled : x.run.enabled = true) : (s.setRun d c x.run.afterCycle).CountsLegal := by
  rw [countsLegal_iff] at hlegal ⊢
  intro d' c' y hy
  by_cases hsame : d' = d ∧ c' = c
  case pos =>
    obtain ⟨rfl, rfl⟩ := hsame
    rw [chan_setRun_same hx, Option.some.injEq] at hy
    subst hy
    exact afterCycle_ne_zero henabled
  case neg =>
    rw [chan_setRun_other hsame] at hy
    exact hlegal d' c' y hy

/-- What draining leaves of a record: Idle in the place of a finite run, and everything else. -/
def Drained (x y : Channel) : Prop :=
  y.duty = x.duty ∧ ((∃ m, x.run = .runningFinite m) → y.run = .idle) ∧
    ((∀ m, x.run ≠ .runningFinite m) → y.run = x.run)

theorem drained_of_not_finite {x : Channel} (hfinite : ∀ m, x.run ≠ .runningFinite m) : Drained x x :=
  ⟨rfl, fun ⟨m, hm⟩ => absurd hm (hfinite m), fun _ => rfl⟩

/-- A cycle event on the way makes no difference to what draining leaves. -/
theorem drained_of_afterCycle {x y : Channel} (henabled : x.run.enabled = true)
    (hdrained : Drained { x with run := x.run.afterCycle } y) : Drained x y := by
  obtain ⟨hduty, hfinite, hother⟩ := hdrained
  obtain ⟨n, hn, _⟩ := (enabled_iff _).1 henabled
  refine ⟨hduty, fun _ => ?_, fun hnot => absurd hn (hnot n)⟩
  rw [hn, RunState.afterCycle] at hfinite hother
  by_cases hlast : n = 1#16
  case pos => exact (hother (by simp [hlast])).trans (if_pos hlast)
  case neg => exact hfinite ⟨_, if_neg hlast⟩

/-- With legal counts a channel has a cycle event due exactly when it is RunningFinite. -/
theorem enabled_eq_false_iff {r : RunState} (hlegal : r ≠ .runningFinite 0#16) :
    r.enabled = false ↔ ∀ m, r ≠ .runningFinite m := by
  cases r with
  | idle => simp [RunState.enabled]
  | runningContinuous => simp [RunState.enabled]
  | runningFinite n =>
    have hpos : n ≠ 0#16 := fun hzero => hlegal (by rw [hzero])
    simp [RunState.enabled, hpos]

/-- With legal counts and nothing scheduled, either a cycle event is taken or no channel is RunningFinite and no move is due. -/
theorem step_drain_cases {s : State} (hlegal : s.CountsLegal) (hschedule : s.schedule = []) :
    (∃ d c x, s.chan d c = some x ∧ x.run.enabled = true ∧ step s = .next (s.setRun d c x.run.afterCycle)) ∨
      step s = .refused .noMoveDue ∧ ∀ row ∈ s.ch, ∀ x ∈ row, ∀ m, x.run ≠ .runningFinite m := by
  rw [step_drain hschedule, drain]
  cases hfirst : firstEnabled 0 s.ch with
  | none =>
    refine .inr ⟨rfl, fun row hrow x hx => ?_⟩
    exact (enabled_eq_false_iff (hlegal row hrow x hx)).1 (firstEnabled_eq_none.1 hfirst row hrow x hx)
  | some dc =>
    obtain ⟨d, c⟩ := dc
    obtain ⟨row, x, hrow, hx, henabled⟩ := firstEnabled_found hfirst
    have hchan : s.chan d c = some x := by rw [State.chan_eq, hrow, Option.bind_some, hx]
    exact .inl ⟨d, c, x, hchan, henabled, cycleEvent_enabled hchan henabled⟩

theorem noFiniteRun_of_forall {s : State} (hfinite : ∀ row ∈ s.ch, ∀ x ∈ row, ∀ m, x.run ≠ .runningFinite m) :
    s.NoFiniteRun := by
  intro row hrow x hx
  split
  next m hm => exact hfinite row hrow x hx m hm
  next => trivial

/-- Settles O35: each step with a cycle event due takes one off `cyclesLeft`; when none is due the run is over. -/
theorem finiteRunsDrainToIdle : Obligations.FiniteRunsDrainToIdle := by
  intro s hlegal hschedule
  induction hleft : s.cyclesLeft using Nat.strong_induction_on generalizing s with
  | _ left ih =>
    obtain ⟨d, c, x, hx, henabled, hstep⟩ | ⟨hstep, hfinite⟩ := step_drain_cases hlegal hschedule
    case inl =>
      have hless := cyclesLeft_setRun_afterCycle hx henabled
      obtain ⟨n, t, hrun, hdone, hnoMove, hover, hframe, hrecords⟩ :=
        ih _ (hleft ▸ hless) _ (setRun_afterCycle_countsLegal hlegal hx henabled) hschedule rfl
      refine ⟨n + 1, t, (run_succ hstep n).trans hrun, hdone, hnoMove, hover, hframe, fun d' c' x' hx' => ?_⟩
      by_cases hsame : d' = d ∧ c' = c
      case pos =>
        obtain ⟨rfl, rfl⟩ := hsame
        obtain rfl : x = x' := Option.some.inj (hx.symm.trans hx')
        obtain ⟨y, hy, hdrained⟩ := hrecords d' c' _ (chan_setRun_same hx _)
        exact ⟨y, hy, drained_of_afterCycle henabled hdrained⟩
      case neg => exact hrecords d' c' x' ((chan_setRun_other hsame _).trans hx')
    case inr =>
      refine ⟨0, s, run_zero s, noFiniteRun_of_forall hfinite, hstep,
        fun hclean => ⟨hschedule, noFiniteRun_of_forall hfinite, hclean⟩, rfl, fun d c x hx => ⟨x, hx, ?_⟩⟩
      rw [State.chan_eq, Option.bind_eq_some_iff] at hx
      obtain ⟨row, hrow, hx⟩ := hx
      exact drained_of_not_finite (hfinite row (List.mem_of_getElem? hrow) x (List.mem_of_getElem? hx))

end Sys2Proof.Machine

/-! The transition relation of one channel (42_pwm_controller.md R102) and what it says of becoming Idle (70_reset_and_hazards.md
R132). -/

namespace Sys2Proof.Machine

/-- What the move of a step leaves of the record `x` of channel `(d, c)` (42_pwm_controller.md R102). -/
def stepEffect (s : State) (d c : Nat) (x y : Channel) : Prop :=
  match s.schedule with
  | [] => y = x ∨ cycleEffect x y
  | .observe _ :: _ => y = x
  | .cycle d' c' :: _ => if d' = d ∧ c' = c then cycleEffect x y else y = x
  | .present frame room :: _ =>
    if admitted s.params frame.length room then
      ∀ i, decode frame = .ok i → match requestOf i with
        | none => y = x
        | some r => configureEffect s.params r d c x y
    else y = x

/-- What a CONFIGURE on a resolved pin leaves of a record, by `chan_apply`. -/
theorem configureEffect_apply {s : State} {r : Request} {d c d' c' : Nat} {x : Channel}
    (hres : resolve s.params r.pin = some (d', c')) (hx : s.chan d c = some x) :
    ∃ y, (s.apply d' c' r.freq r.duty r.count).chan d c = some y ∧ configureEffect s.params r d c x y := by
  simp only [chan_apply, configureEffect, hres, hx, Option.map_some, eq_comm (a := d') (b := d),
    eq_comm (a := c') (b := c)]
  by_cases hsame : d = d' ∧ c = c'
  case pos => simp only [if_pos hsame]; exact ⟨_, rfl, rfl⟩
  case neg =>
    simp only [if_neg hsame]
    split_ifs
    · exact ⟨_, rfl, siblingAfterInit_siblingChannel ..⟩
    · exact ⟨x, rfl, rfl⟩

/-- What a command leaves of a record: without a request, or with a pin that is not found, what was there. -/
theorem exec_chan {i : Instr} {s t : State} {d c : Nat} {x : Channel} (hexec : exec i s = .next t)
    (hx : s.chan d c = some x) :
    ∃ y, t.chan d c = some y ∧ (requestOf i = none → y = x) ∧
      ∀ r, requestOf i = some r → configureEffect s.params r d c x y := by
  cases hcause : causeOf s.params i with
  | none =>
    obtain ⟨r, d', c', hreq, hres, rfl⟩ := exec_of_causeOf_eq_none hexec hcause
    obtain ⟨y, hy, heffect⟩ := configureEffect_apply hres hx
    refine ⟨y, by simpa using hy, fun hnone => by simp [hreq] at hnone, fun r' hreq' => ?_⟩
    obtain rfl : r = r' := Option.some.inj (hreq.symm.trans hreq')
    exact heffect
  | some cause =>
    obtain rfl := exec_of_causeOf_eq_some hexec hcause
    refine ⟨x, by simpa using hx, fun _ => rfl, fun r hreq => ?_⟩
    have hres : resolve s.params r.pin = none := by
      by_contra hfound
      simp [causeOf_configure hreq, hfound] at hcause
    rw [configureEffect, hres]

/-- What a cycle event of any channel leaves of the record of `(d, c)`. -/
theorem setRun_afterCycle_chan {s : State} {d c d' c' : Nat} {x x' : Channel} (hx : s.chan d c = some x)
    (hx' : s.chan d' c' = some x') (henabled : x'.run.enabled = true) :
    ∃ y, (s.setRun d' c' x'.run.afterCycle).chan d c = some y ∧
      if d' = d ∧ c' = c then cycleEffect x y else y = x := by
  by_cases hsame : d' = d ∧ c' = c
  case pos =>
    obtain ⟨rfl, rfl⟩ := hsame
    obtain rfl : x' = x := Option.some.inj (hx'.symm.trans hx)
    exact ⟨_, chan_setRun_same hx' _, by simpa using cycleEffect_afterCycle henabled⟩
  case neg =>
    have hsame' : ¬(d = d' ∧ c = c') := fun h => hsame ⟨h.1.symm, h.2.symm⟩
    exact ⟨x, (chan_setRun_other hsame' _).trans hx, by rw [if_neg hsame]⟩

/-- Every step leaves of a record what its move says. -/
theorem step_chan {s t : State} {d c : Nat} {x : Channel} (hstep : step s = .next t) (hx : s.chan d c = some x) :
    ∃ y, t.chan d c = some y ∧ stepEffect s d c x y := by
  unfold stepEffect
  obtain ⟨frame, room, rest, hschedule, hunadmitted, rfl⟩ |
    ⟨frame, room, rest, i, hschedule, hadmitted, hdecode, hexec⟩ |
    ⟨d', c', x', rest, hschedule | ⟨hschedule, rfl⟩, hx', henabled, rfl⟩ |
    ⟨cell, rest, hschedule, rfl | ⟨_, rfl⟩⟩ := step_cases hstep
  all_goals simp only [hschedule]
  case inl => exact ⟨x, hx, by simp [hunadmitted]⟩
  case inr.inl =>
    obtain ⟨y, hy, hnone, hsome⟩ := exec_chan hexec hx
    refine ⟨y, hy, ?_⟩
    rw [if_pos hadmitted]
    intro j hj
    obtain rfl : i = j := Except.ok.inj (hdecode.symm.trans hj)
    split
    next hreq => exact hnone hreq
    next r hreq => exact hsome r hreq
  case inr.inr.inl.inl => exact setRun_afterCycle_chan hx hx' henabled
  case inr.inr.inl.inr =>
    obtain ⟨y, hy, heffect⟩ := setRun_afterCycle_chan hx hx' henabled
    refine ⟨y, hy, ?_⟩
    split_ifs at heffect
    · exact .inr heffect
    · exact .inl heffect
  case inr.inr.inr.inl => exact ⟨x, hx, rfl⟩
  case inr.inr.inr.inr => exact ⟨x, hx, rfl⟩

/-- Settles O46: `step_chan`, which needs no legal counts, since an enabled cycle event finds a count. -/
theorem channelTransitionRelation : Obligations.ChannelTransitionRelation := by
  intro s t d c x _ hstep hx
  exact step_chan hstep hx

/-! ### Becoming Idle -/

section
variable {x y : Channel}

theorem run_eq_one_of_cycleEffect_idle (heffect : cycleEffect x y) (hidle : y.run = .idle) :
    x.run = .runningFinite 1#16 := by
  obtain ⟨m, _, _, rfl⟩ | ⟨hlast, _⟩ := heffect
  · cases hidle
  · exact hlast

/-- Under PRESERVE a CONFIGURE makes a running channel Idle only with frequency 0 and a pin that resolves to that channel. -/
theorem stop_of_configureEffect_idle {p : Params} {r : Request} {d c : Nat} (hpreserve : p.siblingInit = .preserve)
    (heffect : configureEffect p r d c x y) (hrunning : x.run ≠ .idle) (hidle : y.run = .idle) :
    r.freq = 0#16 ∧ resolve p r.pin = some (d, c) := by
  have hchanged : y ≠ x := fun h => hrunning (h ▸ hidle)
  unfold configureEffect at heffect
  split at heffect
  next => exact absurd heffect hchanged
  next d' c' hres =>
    split_ifs at heffect with hsame hfreq hcount hsibling
    · obtain ⟨rfl, rfl⟩ := hsame
      exact ⟨hfreq, hres⟩
    · rw [heffect] at hidle; cases hidle
    · rw [heffect] at hidle; cases hidle
    · exact absurd (heffect.1 hpreserve) hchanged
    · exact absurd heffect hchanged

end

/-- A decoded CONFIGURE with frequency 0 is a PWM.STOP: the codec gives no run and no pulse without one. -/
theorem eq_pwmStop_of_decode {frame : List Byte} {i : Instr} {r : Request} (hdecode : decode frame = .ok i)
    (hreq : requestOf i = some r) (hfreq : r.freq = 0#16) : i = .pwmStop r.pin r.duty r.count := by
  have hwf := wf_of_decode hdecode
  cases i <;> cases hreq
  case pwmStop => rfl
  case pwmRun => exact absurd hfreq (of_decide_eq_true hwf)
  case pwmPulse =>
    rw [Instr.wf, Bool.and_eq_true, decide_eq_true_eq] at hwf
    exact absurd hfreq hwf.1

/-- Settles O47: of the moves in `step_chan`, under PRESERVE, only the last cycle and a stop of the channel make it Idle. -/
theorem idleOnlyByStopOrLastCycle : Obligations.IdleOnlyByStopOrLastCycle := by
  intro s t d c x y hpreserve hstep hx hy hrunning hidle
  have hchanged : y ≠ x := fun h => hrunning (h ▸ hidle)
  obtain ⟨y', hy', heffect⟩ := step_chan hstep hx
  obtain rfl : y = y' := Option.some.inj (hy.symm.trans hy')
  unfold stepEffect at heffect
  split at heffect
  next hschedule =>
    obtain hsame | hcycle := heffect
    · exact absurd hsame hchanged
    · exact .inl ⟨run_eq_one_of_cycleEffect_idle hcycle hidle, .inr hschedule⟩
  next => exact absurd heffect hchanged
  next d' c' rest hschedule =>
    split_ifs at heffect with hsame
    · obtain ⟨rfl, rfl⟩ := hsame
      exact .inl ⟨run_eq_one_of_cycleEffect_idle heffect hidle, .inl ⟨rest, hschedule⟩⟩
    · exact absurd heffect hchanged
  next frame room rest hschedule =>
    split_ifs at heffect with hadmitted
    · obtain ⟨i, hdecode⟩ := exists_decode_eq_ok frame
      have hconfigure := heffect i hdecode
      split at hconfigure
      next => exact absurd hconfigure hchanged
      next r hreq =>
        obtain ⟨hfreq, hres⟩ := stop_of_configureEffect_idle hpreserve hconfigure hrunning hidle
        obtain rfl := eq_pwmStop_of_decode hdecode hreq hfreq
        exact .inr ⟨frame, room, rest, r.pin, r.duty, r.count, hschedule, hdecode, hres⟩
    · exact absurd heffect hchanged

end Sys2Proof.Machine

/-! Reset and the invariant (10_state.md R21 to R30, 60_exceptions.md R123): it holds at launch, each operation keeps it, so every
step does. -/

namespace Sys2Proof.Machine

/-! ### Reset -/

theorem chan_launch (p : Params) (d c : Nat) :
    (State.launch p).chan d c = if c < (p.registry[d]?.getD []).length then some Channel.initial else none := by
  rw [State.chan_eq, State.launch, List.getElem?_map]
  cases p.registry[d]? with
  | none => rfl
  | some row =>
    simp only [Option.map_some, Option.bind_some, List.getElem?_map, Option.getD_some]
    split_ifs with hc
    · rw [List.getElem?_eq_getElem hc, Option.map_some]
    · rw [List.getElem?_eq_none (not_lt.1 hc), Option.map_none]

theorem dev_launch (p : Params) (d : Nat) :
    (State.launch p).dev[d]? = if d < p.registry.length then some Device.uninitialised else none := by
  rw [State.launch, List.getElem?_map]
  split_ifs with hd
  · rw [List.getElem?_eq_getElem hd, Option.map_some]
  · rw [List.getElem?_eq_none (not_lt.1 hd), Option.map_none]

/-- Every record of a launched machine is the one R30 gives. -/
theorem eq_initial_of_mem_launch {p : Params} {row : List Channel} {x : Channel} (hrow : row ∈ (State.launch p).ch)
    (hx : x ∈ row) : x = Channel.initial := by
  obtain ⟨keys, _, rfl⟩ := List.mem_map.1 hrow
  obtain ⟨_, _, rfl⟩ := List.mem_map.1 hx
  rfl

theorem launch_countsLegal (p : Params) : (State.launch p).CountsLegal := by
  intro row hrow x hx
  rw [eq_initial_of_mem_launch hrow hx]
  exact RunState.noConfusion

theorem step_launch (p : Params) : step (State.launch p) = .refused .noMoveDue := by
  have hnone : firstEnabled 0 (State.launch p).ch = none := firstEnabled_eq_none.2 fun row hrow x hx => by
    rw [eq_initial_of_mem_launch hrow hx]
    rfl
  rw [step_drain rfl, drain, hnone]

/-- Settles O39: the records by `chan_launch` and `dev_launch`, the other cells as `State.launch` writes them. -/
theorem resetLeavesTheLaunchState : Obligations.ResetLeavesTheLaunchState :=
  ⟨fun p => ⟨rfl, chan_launch p, dev_launch p, rfl, fun _ => rfl, rfl, rfl, ⟨rfl, rfl⟩, rfl, step_launch p⟩, rfl⟩

theorem launch_inv (p : Params) : (State.launch p).Inv := by
  refine ⟨⟨?lengths, List.length_map ..⟩, launch_countsLegal p, fun v hv => ?device, fun _ hcall => (nomatch hcall), rfl,
    .inl rfl, fun hvalid => (nomatch hvalid), List.nodup_nil, rfl⟩
  case lengths => simp [State.launch, Function.comp_def]
  case device =>
    obtain ⟨_, _, rfl⟩ := List.mem_map.1 hv
    rfl

/-- Settles O40: State.reset is one of the launch states. -/
theorem resetMeetsInvariant : Obligations.ResetMeetsInvariant :=
  ⟨launch_inv resetParams, launch_inv⟩

/-! ### What `apply` keeps -/

section
variable {s : State} {d c : Nat}

theorem apply_lengths (s : State) (d c : Nat) (f : Half) (du : Byte) (n : Half) :
    (s.apply d c f du n).ch.map List.length = s.ch.map List.length := by
  have hinit : ((s.initDevice d c f).setDutyStep d c du).ch.map List.length = s.ch.map List.length :=
    (updateChan_lengths ..).trans (siblingEffect_lengths ..)
  unfold State.apply
  split_ifs
  · exact updateChan_lengths ..
  · exact (updateChan_lengths ..).trans hinit
  · exact (updateChan_lengths ..).trans hinit

theorem apply_shaped (hshaped : s.Shaped) (f : Half) (du : Byte) (n : Half) : (s.apply d c f du n).Shaped := by
  obtain ⟨hch, hdev⟩ := hshaped
  refine ⟨by rw [apply_lengths, apply_params, hch], ?devices⟩
  rw [apply_params, ← hdev, apply_dev]
  split_ifs
  · rfl
  · exact List.length_set

/-- A finite run is started with a nonzero count, and an init leaves a sibling its run or Idle. -/
theorem apply_countsLegal (hlegal : s.CountsLegal) (f : Half) (du : Byte) (n : Half) :
    (s.apply d c f du n).CountsLegal := by
  rw [countsLegal_iff] at hlegal ⊢
  intro d' c' y hy
  rw [chan_apply] at hy
  split_ifs at hy with hsame hf hn hsibling
  · obtain ⟨x, _, rfl⟩ := Option.map_eq_some_iff.1 hy
    exact RunState.noConfusion
  · obtain ⟨x, _, rfl⟩ := Option.map_eq_some_iff.1 hy
    exact RunState.noConfusion
  · obtain ⟨x, _, rfl⟩ := Option.map_eq_some_iff.1 hy
    exact fun hzero => hn (RunState.runningFinite.inj hzero)
  · obtain ⟨x, hx, rfl⟩ := Option.map_eq_some_iff.1 hy
    obtain hkeeps | hidle := siblingChannel_run s.params s.draws c' x
    · rw [hkeeps]; exact hlegal d' c' x hx
    · rw [hidle]; exact RunState.noConfusion
  · exact hlegal d' c' y hy

theorem apply_devicesLegal (hlegal : s.DevicesLegal) (f : Half) (du : Byte) (n : Half) :
    (s.apply d c f du n).DevicesLegal := by
  intro v hv
  rw [apply_dev] at hv
  rw [apply_params]
  split_ifs at hv with hf
  · exact hlegal v hv
  · obtain hold | rfl := List.mem_or_eq_of_mem_set hv
    · exact hlegal v hold
    · simp [Device.legal, hf]

theorem registered_of_resolve {p : Params} {pin : Byte} (hres : resolve p pin = some (d, c)) :
    registered p d c = true := by
  rw [registered, regKey_of_resolve hres, Option.isSome_some]

/-- The calls on a resolved pin are of a registered channel, with a nonzero frequency and count. -/
theorem apply_traceLegal {pin : Byte} (hres : resolve s.params pin = some (d, c)) (hlegal : s.TraceLegal) (f : Half)
    (du : Byte) (n : Half) : (s.apply d c f du n).TraceLegal := by
  have hregistered := registered_of_resolve hres
  have hdevice := device_lt_of_regKey (regKey_of_resolve hres)
  intro e he
  rw [apply_trace, List.mem_append] at he
  rw [apply_params]
  obtain hold | hnew := he
  case inl => exact hlegal e hold
  case inr =>
    split_ifs at hnew with hf hn
    · obtain rfl := List.mem_singleton.1 hnew
      exact hregistered
    all_goals
      simp only [List.mem_cons, List.not_mem_nil, or_false] at hnew
      obtain rfl | rfl | rfl := hnew <;> simp [Call.legal, *]

end

/-! ### The operations keep the invariant -/

section
variable {s : State} (hinv : s.Inv)
include hinv

theorem apply_inv {pin : Byte} {d c : Nat} (hres : resolve s.params pin = some (d, c)) (f : Half) (du : Byte) (n : Half) :
    (s.apply d c f du n).Inv := by
  obtain ⟨hshaped, hcounts, hdevices, htrace, hrest⟩ := hinv
  refine ⟨apply_shaped hshaped f du n, apply_countsLegal hcounts f du n, apply_devicesLegal hdevices f du n,
    apply_traceLegal hres htrace f du n, ?_⟩
  simpa only [State.ReplyLegal, apply_req, apply_reply, apply_params, apply_replyValid, apply_faultSet] using hrest

theorem replyWith_inv (o : Status) : (s.replyWith o).Inv := by
  obtain ⟨hshaped, hcounts, hdevices, htrace, hreq, hreply, _, hfault, hwf⟩ := hinv
  have hbytes := replyWith_reply_eq hreply o
  refine ⟨hshaped, hcounts, hdevices, htrace, hreq, ?reply, fun _ => by rw [hbytes]; exact List.cons_ne_nil _ _, hfault,
    Memory.wf_write _ 1 _ (Memory.wf_write _ 0 _ hwf)⟩
  case reply =>
    cases o
    case ok => exact .inr (.inl hbytes)
    case fail => exact .inr (.inr hbytes)

theorem raise_inv (cause : Cause) : (s.raise cause).Inv := by
  cases cause with
  | unknownOpcode op =>
    obtain ⟨hshaped, hcounts, hdevices, htrace, hreq, hreply, _, hrest⟩ := hinv
    exact ⟨hshaped, hcounts, hdevices, htrace, hreq, hreply, fun hvalid => (nomatch hvalid), hrest⟩
  | malformedCommand len =>
    exact replyWith_inv (s := { s with history := s.history ++ [⟨s.k, .malformedCommand len⟩] }) hinv .fail
  | pinNotAvailable pin =>
    exact replyWith_inv (s := { s with history := s.history ++ [⟨s.k, .pinNotAvailable pin⟩] }) hinv .fail

theorem endCommand_inv : s.endCommand.Inv := by
  obtain ⟨hshaped, hcounts, hdevices, htrace, _, hrest⟩ := hinv
  exact ⟨hshaped, hcounts, hdevices, htrace, rfl, hrest⟩

theorem setRun_afterCycle_inv {d c : Nat} {x : Channel} (hx : s.chan d c = some x) (henabled : x.run.enabled = true) :
    (s.setRun d c x.run.afterCycle).Inv := by
  obtain ⟨⟨hch, hdev⟩, hcounts, hrest⟩ := hinv
  exact ⟨⟨(updateChan_lengths ..).trans hch, hdev⟩, setRun_afterCycle_countsLegal hcounts hx henabled, hrest⟩

theorem markFault_inv (r : FaultReason) : (s.markFault r).Inv := by
  by_cases hthere : r ∈ s.faultSet
  case pos => rwa [markFault_of_mem hthere]
  case neg =>
    obtain ⟨hshaped, hcounts, hdevices, htrace, hreq, hreply, hvalid, hfault, hwf⟩ := hinv
    rw [markFault_of_not_mem hthere]
    rw [← List.concat_eq_append]
    exact ⟨hshaped, hcounts, hdevices, htrace, hreq, hreply, hvalid, List.Nodup.concat hthere hfault, hwf⟩

theorem exec_inv {i : Instr} {t : State} (hexec : exec i s = .next t) : t.Inv := by
  cases hcause : causeOf s.params i with
  | none =>
    obtain ⟨r, d, c, _, hres, rfl⟩ := exec_of_causeOf_eq_none hexec hcause
    -- The request latched in between is gone at the end of the command.
    have hended := endCommand_inv (replyWith_inv (apply_inv hinv hres r.freq r.duty r.count) .ok)
    exact hended
  | some cause =>
    obtain rfl := exec_of_causeOf_eq_some hexec hcause
    exact endCommand_inv (raise_inv hinv cause)

end

/-- Settles O41: every move is a chain of operations that keep the invariant, and the schedule, the index and REFUSED are no part
of it. -/
theorem stepKeepsInvariant : Obligations.StepKeepsInvariant := by
  intro s t hinv hstep
  obtain ⟨_, _, _, _, _, rfl⟩ | ⟨_, _, rest, _, _, _, _, hexec⟩ | ⟨_, _, _, rest, _, hx, henabled, rfl⟩ |
    ⟨_, rest, _, rfl | ⟨_, rfl⟩⟩ := step_cases hstep
  · exact hinv
  · exact exec_inv (s := { s with schedule := rest }) hinv hexec
  · exact setRun_afterCycle_inv (s := { s with schedule := rest }) hinv hx henabled
  · exact hinv
  · exact markFault_inv (s := { s with schedule := rest }) hinv _

end Sys2Proof.Machine
